-- ==== Sys2Proof/Word.lean ====
section
/-!
DEFINITION. The two word types of the block: bytes (R4, data width 8) and words (R4, address width 16).
All arithmetic on them is unsigned and modular (R6), which is BitVec arithmetic.
The field, sign-extension and byte-order helpers stand in Decode.lean.
-/

namespace Sys2Proof

/-- An 8-bit register, memory cell or bus datum (R4). -/
abbrev Byte := BitVec 8

/-- A 16-bit address, register pair, SP or PC (R4). -/
abbrev Word := BitVec 16

end Sys2Proof
end

