-- ==== Sys2Proof/Syntax.lean ====
section
/-!
DEFINITION. The syntax of the instruction set: the operand names of R73 to R75, the contents of an
opcode descriptor (R80) and the one inductive of instructions, a constructor for every operand form of
every mnemonic of spec/opcode_table.json. What an instruction does is said in Machine/ alone.
-/

namespace Sys2Proof

/-- The registers a 3-bit register field can name (R73). F, SP and PC have no code. -/
inductive GReg where
  | b | c | d | e | h | l | a
deriving DecidableEq, Repr

/-- What a 3-bit register field denotes (R73): a register, or the memory byte at the address HL (code 6). -/
inductive Opnd8 where
  | reg (r : GReg)
  | hlInd
deriving DecidableEq, Repr

/-- The 2-bit pair field of LD rr,n16, INC rr, DEC rr and ADD HL,rr (R74, `rp`). -/
inductive Rp where
  | bc | de | hl | sp
deriving DecidableEq, Repr

/-- The 2-bit pair field of PUSH and POP (R74, `rp2`). -/
inductive Rp2 where
  | bc | de | hl | af
deriving DecidableEq, Repr

/-- The condition names (R75). -/
inductive Cond where
  | nz | z | nc | c
deriving DecidableEq, Repr

/-- The four flags (R14). -/
inductive Flag where
  | z | n | h | c
deriving DecidableEq, Repr

/-- A flag-effect tag of a descriptor: what execution must do to that flag (R80, R108). -/
inductive FlagTag where
  /-- `-`: the handler proposes nothing. -/
  | unaffected
  /-- `0`: the handler proposes 0. -/
  | forced0
  /-- `1`: the handler proposes 1. -/
  | forced1
  /-- The flag's letter: the handler proposes some value. -/
  | computed
deriving DecidableEq, Repr

/-- The four declared tags of a descriptor, in the order Z N H C (R80). -/
structure FlagTags where
  z : FlagTag
  n : FlagTag
  h : FlagTag
  c : FlagTag
deriving DecidableEq, Repr

/-- The names an operand descriptor can carry (R76, R77, R78). -/
inductive OperandName where
  | reg (r : GReg)
  | bc | de | hl | af | sp
  | cond (cc : Cond)
  /-- The bit index of BIT, RES and SET: a decimal digit (R78). -/
  | digit (b : BitVec 3)
  /-- The vector of RST, `8 * t` (R78). -/
  | vector (t : BitVec 3)
  | n8 | n16 | a8 | a16 | e8
deriving DecidableEq, Repr

/-- Whether accessing an operand adjusts the pair it goes through (R77; occurs for HL only). -/
inductive Adjust where
  | none | increment | decrement
deriving DecidableEq, Repr

/-- An operand descriptor (R80): its name, whether it denotes the named thing itself ("immediate") or
the memory cell addressed through it, and its auto-adjust. -/
structure OperandDesc where
  name      : OperandName
  immediate : Bool := true
  adjust    : Adjust := .none
deriving DecidableEq, Repr

/-- An opcode descriptor, the content of one word of the dispatch ROM (R80). -/
structure Descriptor where
  mnemonic : String
  operands : List OperandDesc
  length   : Nat
  tags     : FlagTags
deriving DecidableEq, Repr

/-- The entries of the prefixed table, selected by the byte after the escape byte (R82). -/
inductive CbOp where
  | rlc (x : Opnd8) | rrc (x : Opnd8) | rl (x : Opnd8) | rr (x : Opnd8)
  | sla (x : Opnd8) | sra (x : Opnd8) | swap (x : Opnd8) | srl (x : Opnd8)
  | bit (b : BitVec 3) (x : Opnd8)
  | res (b : BitVec 3) (x : Opnd8)
  | set (b : BitVec 3) (x : Opnd8)
deriving DecidableEq, Repr

/-- The instructions: one constructor for every operand form of every mnemonic of the opcode table.
The rule behind each form gives its meaning; the assembler text is that of R87. -/
inductive Instr where
  /-- NOP (R130). -/
  | nop
  /-- DI (R131). -/
  | di
  /-- JP a16 (R135). -/
  | jp (a16 : Word)
  /-- JP cc, a16 (R138). -/
  | jpCc (cc : Cond) (a16 : Word)
  /-- JP HL (R139). -/
  | jpHl
  /-- JR e8 (R136). -/
  | jr (e8 : Byte)
  /-- JR cc, e8 (R137). -/
  | jrCc (cc : Cond) (e8 : Byte)
  /-- LD r, r' (R150). -/
  | ldRR (dst r : GReg)
  /-- LD r, n8 (R151). -/
  | ldRN (dst : GReg) (n8 : Byte)
  /-- LD r, [HL] (R152). -/
  | ldRHl (dst : GReg)
  /-- LD [HL], r (R153). -/
  | ldHlR (r : GReg)
  /-- LD [HL], n8 (R154). -/
  | ldHlN (n8 : Byte)
  /-- LD A, [BC] (R155). -/
  | ldABc
  /-- LD A, [DE] (R156). -/
  | ldADe
  /-- LD [BC], A (R157). -/
  | ldBcA
  /-- LD [DE], A (R158). -/
  | ldDeA
  /-- LD A, [HL+] (R159). -/
  | ldAHli
  /-- LD A, [HL-] (R160). -/
  | ldAHld
  /-- LD [HL+], A (R161). -/
  | ldHliA
  /-- LD [HL-], A (R162). -/
  | ldHldA
  /-- LD rr, n16 (R163). -/
  | ldRrN (p : Rp) (n16 : Word)
  /-- LD SP, HL (R164). -/
  | ldSpHl
  /-- LD [a16], A (R165). -/
  | ldA16A (a16 : Word)
  /-- LD A, [a16] (R166). -/
  | ldAA16 (a16 : Word)
  /-- LDH [a8], A (R167). -/
  | ldhA8A (a8 : Byte)
  /-- LDH A, [a8] (R168). -/
  | ldhAA8 (a8 : Byte)
  /-- LD [a16], SP (R169). -/
  | ldA16Sp (a16 : Word)
  /-- LD HL, SP+e8 (R170). -/
  | ldHlSpE (e8 : Byte)
  /-- LD [C], A (R171). -/
  | ldCA
  /-- LD A, [C] (R172). -/
  | ldAC
  /-- CP r, CP [HL] (R193, R194). -/
  | cp (x : Opnd8)
  /-- CP n8 (R195). -/
  | cpN (n8 : Byte)
  /-- SUB r, SUB [HL] (R196, R197). -/
  | sub (x : Opnd8)
  /-- SUB n8 (R198). -/
  | subN (n8 : Byte)
  /-- ADD A, r, ADD A, [HL] (R199, R200). -/
  | add (x : Opnd8)
  /-- ADD A, n8 (R201). -/
  | addN (n8 : Byte)
  /-- AND r, AND [HL] (R202, R203). -/
  | and (x : Opnd8)
  /-- AND n8 (R204). -/
  | andN (n8 : Byte)
  /-- OR r, OR [HL] (R205, R206). -/
  | or (x : Opnd8)
  /-- OR n8 (R207). -/
  | orN (n8 : Byte)
  /-- XOR r, XOR [HL] (R208, R209). -/
  | xor (x : Opnd8)
  /-- XOR n8 (R210). -/
  | xorN (n8 : Byte)
  /-- INC r, INC [HL] (R211, R212). -/
  | inc8 (x : Opnd8)
  /-- DEC r, DEC [HL] (R213, R214). -/
  | dec8 (x : Opnd8)
  /-- INC rr (R215). -/
  | incRr (p : Rp)
  /-- DEC rr (R216). -/
  | decRr (p : Rp)
  /-- BIT b, r, BIT b, [HL] (R230, R231). -/
  | bit (b : BitVec 3) (x : Opnd8)
  /-- RL r, RL [HL] (R232, R233). -/
  | rl (x : Opnd8)
  /-- RLA (R234). -/
  | rla
  /-- RR r, RR [HL] (R235, R236). -/
  | rr (x : Opnd8)
  /-- RRA (R237). -/
  | rra
  /-- SRL r, SRL [HL] (R238, R239). -/
  | srl (x : Opnd8)
  /-- RST 8*t (R250). -/
  | rst (t : BitVec 3)
  /-- CALL a16 (R251). -/
  | call (a16 : Word)
  /-- CALL cc, a16 (R252). -/
  | callCc (cc : Cond) (a16 : Word)
  /-- PUSH rr (R253). -/
  | push (p : Rp2)
  /-- POP rr (R254); POP AF (R255). -/
  | pop (p : Rp2)
  /-- RET (R256). -/
  | ret
  /-- RLCA (R271). -/
  | rlca
  /-- RRCA (R272). -/
  | rrca
  /-- STOP n8 (R273). -/
  | stop (n8 : Byte)
  /-- DAA (R274). -/
  | daa
  /-- CPL (R275). -/
  | cpl
  /-- SCF (R276). -/
  | scf
  /-- CCF (R277). -/
  | ccf
  /-- HALT (R278). -/
  | halt
  /-- ADC A, r, ADC A, [HL] (R279). -/
  | adc (x : Opnd8)
  /-- ADC A, n8 (R279). -/
  | adcN (n8 : Byte)
  /-- SBC A, r, SBC A, [HL] (R280). -/
  | sbc (x : Opnd8)
  /-- SBC A, n8 (R280). -/
  | sbcN (n8 : Byte)
  /-- ADD HL, rr (R281). -/
  | addHlRr (p : Rp)
  /-- ADD SP, e8 (R282). -/
  | addSpE (e8 : Byte)
  /-- RET cc (R283). -/
  | retCc (cc : Cond)
  /-- RETI (R284). -/
  | reti
  /-- EI (R285). -/
  | ei
  /-- RLC x (R286). -/
  | rlc (x : Opnd8)
  /-- RRC x (R287). -/
  | rrc (x : Opnd8)
  /-- SLA x (R288). -/
  | sla (x : Opnd8)
  /-- SRA x (R289). -/
  | sra (x : Opnd8)
  /-- SWAP x (R290). -/
  | swap (x : Opnd8)
  /-- RES b, x (R291). -/
  | res (b : BitVec 3) (x : Opnd8)
  /-- SET b, x (R292). -/
  | set (b : BitVec 3) (x : Opnd8)
  /-- A byte with no table entry (R83, R293): the byte itself. -/
  | noEntry (op : Byte)
  /-- The escape byte followed by `op` (R294): a table row of its own, never the result of decoding,
  since the escape byte "is never dispatched as an instruction". -/
  | escape (op : Byte)
deriving DecidableEq, Repr

end Sys2Proof
end

