-- ==== Sys2Proof/WellFormed.lean ====
section
/-!
DEFINITION. Which terms of Instr are instructions the decoder can give. The operand types already bound
every field (a register field cannot name F, R73; a bit index is 0 to 7, R78), so two checks remain.
-/

namespace Sys2Proof

/-- The eleven unprefixed byte values with no table entry (R83, R293). -/
def absentBytes : List Byte :=
  [0xD3, 0xDB, 0xDD, 0xE3, 0xE4, 0xEB, 0xEC, 0xED, 0xF4, 0xFC, 0xFD]

/-- A `noEntry` carries one of the eleven bytes (R293), and the escape byte is no instruction of its
own (R294). Every other term is well formed. -/
def Instr.wf : Instr → Bool
  | .noEntry op => absentBytes.contains op
  | .escape _   => false
  | _           => true

end Sys2Proof
end

