-- ==== Sys2Proof/Decode.lean ====
section
/-!
DEFINITION. From bytes to instructions and back (R70 to R86): the bit and byte helpers, the field codes,
the decoder, the dispatch ROM (the descriptor of every entry), and the encoder.
Decoding is total: every byte value of both tables is an entry or a named `noEntry` (R86), and a list of
bytes that ends inside an instruction is rejected by name.
-/

namespace Sys2Proof

/-! ### Bit and byte helpers (R6) -/

/-- `hi8(w)`: bits 15 to 8. -/
def hi8 (w : Word) : Byte := w.extractLsb' 8 8

/-- `lo8(w)`: bits 7 to 0. -/
def lo8 (w : Word) : Byte := w.extractLsb' 0 8

/-- `{h, l}`: the word with high byte `h` and low byte `l`. -/
def cat (h l : Byte) : Word := h ++ l

/-- `zext_16(b)`. -/
def zext16 (b : Byte) : Word := b.setWidth 16

/-- `sext_16(b)`: the two's-complement value of the byte as a word. -/
def sext16 (b : Byte) : Word := b.signExtend 16

/-- `x = op[7:6]` (R72). -/
def fieldX (op : Byte) : BitVec 2 := op.extractLsb' 6 2

/-- `y = op[5:3]` (R72). -/
def fieldY (op : Byte) : BitVec 3 := op.extractLsb' 3 3

/-- `z = op[2:0]` (R72). -/
def fieldZ (op : Byte) : BitVec 3 := op.extractLsb' 0 3

/-- `p = op[5:4]` (R72). -/
def fieldP (op : Byte) : BitVec 2 := op.extractLsb' 4 2

/-- `q = op[3]` (R72). -/
def fieldQ (op : Byte) : Bool := op.getLsbD 3

/-- The condition field `op[4:3]` (R72, R75). -/
def fieldCc (op : Byte) : BitVec 2 := op.extractLsb' 3 2

/-! ### Field codes (R73 to R75) -/

/-- The operand of a 3-bit register field (R73). -/
def opnd8OfCode (c : BitVec 3) : Opnd8 :=
  match c.toNat with
  | 0 => .reg .b
  | 1 => .reg .c
  | 2 => .reg .d
  | 3 => .reg .e
  | 4 => .reg .h
  | 5 => .reg .l
  | 6 => .hlInd
  | _ => .reg .a

/-- The code of a register (R73). -/
def gregCode : GReg → Byte
  | .b => 0 | .c => 1 | .d => 2 | .e => 3 | .h => 4 | .l => 5 | .a => 7

/-- The code of a 3-bit register operand (R73). -/
def opnd8Code : Opnd8 → Byte
  | .reg r => gregCode r
  | .hlInd => 6

/-- The pair of an `rp` field (R74). -/
def rpOfCode (c : BitVec 2) : Rp :=
  match c.toNat with
  | 0 => .bc
  | 1 => .de
  | 2 => .hl
  | _ => .sp

/-- The code of a pair in an `rp` field (R74). -/
def rpCode : Rp → Byte
  | .bc => 0 | .de => 1 | .hl => 2 | .sp => 3

/-- The pair of an `rp2` field (R74). -/
def rp2OfCode (c : BitVec 2) : Rp2 :=
  match c.toNat with
  | 0 => .bc
  | 1 => .de
  | 2 => .hl
  | _ => .af

/-- The code of a pair in an `rp2` field (R74). -/
def rp2Code : Rp2 → Byte
  | .bc => 0 | .de => 1 | .hl => 2 | .af => 3

/-- The condition of a `cc` field (R75). -/
def condOfCode (c : BitVec 2) : Cond :=
  match c.toNat with
  | 0 => .nz
  | 1 => .z
  | 2 => .nc
  | _ => .c

/-- The code of a condition (R75). -/
def condCode : Cond → Byte
  | .nz => 0 | .z => 1 | .nc => 2 | .c => 3

/-- A 3-bit field as a byte, to be added into an opcode. -/
def code3 (b : BitVec 3) : Byte := b.setWidth 8

/-! ### The two tables (R79, R81, R82) -/

/-- The escape byte (R4, R79). -/
def escapeByte : Byte := 0xCB

/-- The prefixed table (R82): all 256 second bytes have an entry. -/
def decodeCb (op : Byte) : CbOp :=
  match (fieldX op).toNat with
  | 0 =>
    match (fieldY op).toNat with
    | 0 => .rlc (opnd8OfCode (fieldZ op))
    | 1 => .rrc (opnd8OfCode (fieldZ op))
    | 2 => .rl (opnd8OfCode (fieldZ op))
    | 3 => .rr (opnd8OfCode (fieldZ op))
    | 4 => .sla (opnd8OfCode (fieldZ op))
    | 5 => .sra (opnd8OfCode (fieldZ op))
    | 6 => .swap (opnd8OfCode (fieldZ op))
    | _ => .srl (opnd8OfCode (fieldZ op))
  | 1 => .bit (fieldY op) (opnd8OfCode (fieldZ op))
  | 2 => .res (fieldY op) (opnd8OfCode (fieldZ op))
  | _ => .set (fieldY op) (opnd8OfCode (fieldZ op))

/-- An entry of the prefixed table as an instruction. -/
def cbInstr : CbOp → Instr
  | .rlc x   => .rlc x
  | .rrc x   => .rrc x
  | .rl x    => .rl x
  | .rr x    => .rr x
  | .sla x   => .sla x
  | .sra x   => .sra x
  | .swap x  => .swap x
  | .srl x   => .srl x
  | .bit b x => .bit b x
  | .res b x => .res b x
  | .set b x => .set b x

/-- `x = 0`, `z = 0` (R81): NOP, LD [a16],SP, STOP, JR. -/
def decode00 (op b1 b2 : Byte) : Instr :=
  match (fieldY op).toNat with
  | 0 => .nop
  | 1 => .ldA16Sp (cat b2 b1)
  | 2 => .stop b1
  | 3 => .jr b1
  | _ => .jrCc (condOfCode (fieldCc op)) b1

/-- `x = 0`, `z = 2` (R81): the loads and stores of A through a pair. -/
def decode02 (op : Byte) : Instr :=
  match (fieldY op).toNat with
  | 0 => .ldBcA
  | 1 => .ldABc
  | 2 => .ldDeA
  | 3 => .ldADe
  | 4 => .ldHliA
  | 5 => .ldAHli
  | 6 => .ldHldA
  | _ => .ldAHld

/-- `x = 0`, `z = 6` (R81): LD r,n8 and LD [HL],n8. -/
def decode06 (op b1 : Byte) : Instr :=
  match opnd8OfCode (fieldY op) with
  | .reg dst => .ldRN dst b1
  | .hlInd => .ldHlN b1

/-- `x = 0`, `z = 7` (R81): the operations on A and the flags. -/
def decode07 (op : Byte) : Instr :=
  match (fieldY op).toNat with
  | 0 => .rlca
  | 1 => .rrca
  | 2 => .rla
  | 3 => .rra
  | 4 => .daa
  | 5 => .cpl
  | 6 => .scf
  | _ => .ccf

/-- The quarter `x = 0` of the unprefixed table (R81). -/
def decodeX0 (op b1 b2 : Byte) : Instr :=
  match (fieldZ op).toNat with
  | 0 => decode00 op b1 b2
  | 1 => bif fieldQ op then .addHlRr (rpOfCode (fieldP op)) else .ldRrN (rpOfCode (fieldP op)) (cat b2 b1)
  | 2 => decode02 op
  | 3 => bif fieldQ op then .decRr (rpOfCode (fieldP op)) else .incRr (rpOfCode (fieldP op))
  | 4 => .inc8 (opnd8OfCode (fieldY op))
  | 5 => .dec8 (opnd8OfCode (fieldY op))
  | 6 => decode06 op b1
  | _ => decode07 op

/-- The quarter `x = 1` (R81): LD r,r', LD r,[HL], LD [HL],r, and HALT where LD [HL],[HL] would be. -/
def decodeX1 (op : Byte) : Instr :=
  match opnd8OfCode (fieldY op), opnd8OfCode (fieldZ op) with
  | .reg dst, .reg r => .ldRR dst r
  | .reg dst, .hlInd => .ldRHl dst
  | .hlInd, .reg r => .ldHlR r
  | .hlInd, .hlInd => .halt

/-- The quarter `x = 2` (R81): the ALU operations on a register or [HL]. -/
def decodeX2 (op : Byte) : Instr :=
  match (fieldY op).toNat with
  | 0 => .add (opnd8OfCode (fieldZ op))
  | 1 => .adc (opnd8OfCode (fieldZ op))
  | 2 => .sub (opnd8OfCode (fieldZ op))
  | 3 => .sbc (opnd8OfCode (fieldZ op))
  | 4 => .and (opnd8OfCode (fieldZ op))
  | 5 => .xor (opnd8OfCode (fieldZ op))
  | 6 => .or (opnd8OfCode (fieldZ op))
  | _ => .cp (opnd8OfCode (fieldZ op))

/-- `x = 3`, `z = 0` (R81). -/
def decode30 (op b1 : Byte) : Instr :=
  match (fieldY op).toNat with
  | 4 => .ldhA8A b1
  | 5 => .addSpE b1
  | 6 => .ldhAA8 b1
  | 7 => .ldHlSpE b1
  | _ => .retCc (condOfCode (fieldCc op))

/-- `x = 3`, `z = 1` (R81). -/
def decode31 (op : Byte) : Instr :=
  bif fieldQ op then
    match (fieldP op).toNat with
    | 0 => .ret
    | 1 => .reti
    | 2 => .jpHl
    | _ => .ldSpHl
  else .pop (rp2OfCode (fieldP op))

/-- `x = 3`, `z = 2` (R81). -/
def decode32 (op b1 b2 : Byte) : Instr :=
  match (fieldY op).toNat with
  | 4 => .ldCA
  | 5 => .ldA16A (cat b2 b1)
  | 6 => .ldAC
  | 7 => .ldAA16 (cat b2 b1)
  | _ => .jpCc (condOfCode (fieldCc op)) (cat b2 b1)

/-- `x = 3`, `z = 3` (R81): JP a16, the escape byte, DI, EI and four bytes with no entry. -/
def decode33 (op b1 b2 : Byte) : Instr :=
  match (fieldY op).toNat with
  | 0 => .jp (cat b2 b1)
  | 1 => cbInstr (decodeCb b1)
  | 6 => .di
  | 7 => .ei
  | _ => .noEntry op

/-- `x = 3`, `z = 4` (R81): CALL cc and four bytes with no entry. -/
def decode34 (op b1 b2 : Byte) : Instr :=
  bif op.getLsbD 5 then .noEntry op else .callCc (condOfCode (fieldCc op)) (cat b2 b1)

/-- `x = 3`, `z = 5` (R81): PUSH, CALL a16 and three bytes with no entry. -/
def decode35 (op b1 b2 : Byte) : Instr :=
  bif fieldQ op then
    match (fieldP op).toNat with
    | 0 => .call (cat b2 b1)
    | _ => .noEntry op
  else .push (rp2OfCode (fieldP op))

/-- `x = 3`, `z = 6` (R81): the ALU operations on an immediate byte. -/
def decode36 (op b1 : Byte) : Instr :=
  match (fieldY op).toNat with
  | 0 => .addN b1
  | 1 => .adcN b1
  | 2 => .subN b1
  | 3 => .sbcN b1
  | 4 => .andN b1
  | 5 => .xorN b1
  | 6 => .orN b1
  | _ => .cpN b1

/-- The quarter `x = 3` of the unprefixed table, the escape byte included (R81). -/
def decodeX3 (op b1 b2 : Byte) : Instr :=
  match (fieldZ op).toNat with
  | 0 => decode30 op b1
  | 1 => decode31 op
  | 2 => decode32 op b1 b2
  | 3 => decode33 op b1 b2
  | 4 => decode34 op b1 b2
  | 5 => decode35 op b1 b2
  | 6 => decode36 op b1
  | _ => .rst (fieldY op)

/-- The instruction whose first byte is `op`, with `b1` and `b2` the bytes at pc+1 and pc+2 (R76, R79):
a byte the instruction does not have is not looked at. -/
def decodeOp (op b1 b2 : Byte) : Instr :=
  match (fieldX op).toNat with
  | 0 => decodeX0 op b1 b2
  | 1 => decodeX1 op
  | 2 => decodeX2 op
  | _ => decodeX3 op b1 b2

/-! ### The dispatch ROM (R80): the descriptor of every entry -/

/-- Tags `- - - -`. -/
def tagsNone : FlagTags := ⟨.unaffected, .unaffected, .unaffected, .unaffected⟩

/-- Tags `Z 0 H C`: 8-bit ADD, ADC. -/
def tagsAdd : FlagTags := ⟨.computed, .forced0, .computed, .computed⟩

/-- Tags `Z 1 H C`: SUB, CP, SBC. -/
def tagsSub : FlagTags := ⟨.computed, .forced1, .computed, .computed⟩

/-- Tags `Z 0 1 0`: AND. -/
def tagsAnd : FlagTags := ⟨.computed, .forced0, .forced1, .forced0⟩

/-- Tags `Z 0 0 0`: OR, XOR, SWAP. -/
def tagsOr : FlagTags := ⟨.computed, .forced0, .forced0, .forced0⟩

/-- Tags `Z 0 H -`: 8-bit INC. -/
def tagsInc : FlagTags := ⟨.computed, .forced0, .computed, .unaffected⟩

/-- Tags `Z 1 H -`: 8-bit DEC. -/
def tagsDec : FlagTags := ⟨.computed, .forced1, .computed, .unaffected⟩

/-- Tags `Z 0 1 -`: BIT. -/
def tagsBit : FlagTags := ⟨.computed, .forced0, .forced1, .unaffected⟩

/-- Tags `Z 0 0 C`: the rotates and shifts of the prefixed table. -/
def tagsRot : FlagTags := ⟨.computed, .forced0, .forced0, .computed⟩

/-- Tags `0 0 0 C`: RLA, RRA, RLCA, RRCA. -/
def tagsRotA : FlagTags := ⟨.forced0, .forced0, .forced0, .computed⟩

/-- Tags `Z N H C`: POP AF. -/
def tagsAll : FlagTags := ⟨.computed, .computed, .computed, .computed⟩

/-- A register operand. -/
def opReg (r : GReg) : OperandDesc := ⟨.reg r, true, .none⟩

/-- A 3-bit register operand: code 6 is HL "not immediate" (R73). -/
def opX : Opnd8 → OperandDesc
  | .reg r => opReg r
  | .hlInd => ⟨.hl, false, .none⟩

/-- A pair operand of an `rp` field. -/
def opRp : Rp → OperandDesc
  | .bc => ⟨.bc, true, .none⟩
  | .de => ⟨.de, true, .none⟩
  | .hl => ⟨.hl, true, .none⟩
  | .sp => ⟨.sp, true, .none⟩

/-- A pair operand of an `rp2` field. -/
def opRp2 : Rp2 → OperandDesc
  | .bc => ⟨.bc, true, .none⟩
  | .de => ⟨.de, true, .none⟩
  | .hl => ⟨.hl, true, .none⟩
  | .af => ⟨.af, true, .none⟩

/-- An operand that denotes the named thing itself. -/
def opImm (n : OperandName) : OperandDesc := ⟨n, true, .none⟩

/-- An operand in square brackets: the memory cell the named thing addresses (R77). -/
def opMem (n : OperandName) : OperandDesc := ⟨n, false, .none⟩

/-- The descriptor of an entry (R80): mnemonic, operands, length (R70) and flag-effect tags. The rows of
`noEntry` and `escape` are the table's placeholders, which nothing uses (R89). -/
def rom : Instr → Descriptor
  | .nop         => ⟨"NOP", [], 1, tagsNone⟩
  | .di          => ⟨"DI", [], 1, tagsNone⟩
  | .jp _        => ⟨"JP", [opImm .a16], 3, tagsNone⟩
  | .jpCc cc _   => ⟨"JP", [opImm (.cond cc), opImm .a16], 3, tagsNone⟩
  | .jpHl        => ⟨"JP", [opImm .hl], 1, tagsNone⟩
  | .jr _        => ⟨"JR", [opImm .e8], 2, tagsNone⟩
  | .jrCc cc _   => ⟨"JR", [opImm (.cond cc), opImm .e8], 2, tagsNone⟩
  | .ldRR dst r  => ⟨"LD", [opReg dst, opReg r], 1, tagsNone⟩
  | .ldRN dst _  => ⟨"LD", [opReg dst, opImm .n8], 2, tagsNone⟩
  | .ldRHl dst   => ⟨"LD", [opReg dst, opMem .hl], 1, tagsNone⟩
  | .ldHlR r     => ⟨"LD", [opMem .hl, opReg r], 1, tagsNone⟩
  | .ldHlN _     => ⟨"LD", [opMem .hl, opImm .n8], 2, tagsNone⟩
  | .ldABc       => ⟨"LD", [opReg .a, opMem .bc], 1, tagsNone⟩
  | .ldADe       => ⟨"LD", [opReg .a, opMem .de], 1, tagsNone⟩
  | .ldBcA       => ⟨"LD", [opMem .bc, opReg .a], 1, tagsNone⟩
  | .ldDeA       => ⟨"LD", [opMem .de, opReg .a], 1, tagsNone⟩
  | .ldAHli      => ⟨"LD", [opReg .a, ⟨.hl, false, .increment⟩], 1, tagsNone⟩
  | .ldAHld      => ⟨"LD", [opReg .a, ⟨.hl, false, .decrement⟩], 1, tagsNone⟩
  | .ldHliA      => ⟨"LD", [⟨.hl, false, .increment⟩, opReg .a], 1, tagsNone⟩
  | .ldHldA      => ⟨"LD", [⟨.hl, false, .decrement⟩, opReg .a], 1, tagsNone⟩
  | .ldRrN p _   => ⟨"LD", [opRp p, opImm .n16], 3, tagsNone⟩
  | .ldSpHl      => ⟨"LD", [opImm .sp, opImm .hl], 1, tagsNone⟩
  | .ldA16A _    => ⟨"LD", [opMem .a16, opReg .a], 3, tagsNone⟩
  | .ldAA16 _    => ⟨"LD", [opReg .a, opMem .a16], 3, tagsNone⟩
  | .ldhA8A _    => ⟨"LDH", [opMem .a8, opReg .a], 2, tagsNone⟩
  | .ldhAA8 _    => ⟨"LDH", [opReg .a, opMem .a8], 2, tagsNone⟩
  | .ldA16Sp _   => ⟨"LD", [opMem .a16, opImm .sp], 3, tagsNone⟩
  | .ldHlSpE _   => ⟨"LD", [opImm .hl, opImm .sp, opImm .e8], 2, ⟨.forced0, .forced0, .computed, .computed⟩⟩
  | .ldCA        => ⟨"LD", [opMem (.reg .c), opReg .a], 1, tagsNone⟩
  | .ldAC        => ⟨"LD", [opReg .a, opMem (.reg .c)], 1, tagsNone⟩
  | .cp x        => ⟨"CP", [opX x], 1, tagsSub⟩
  | .cpN _       => ⟨"CP", [opImm .n8], 2, tagsSub⟩
  | .sub x       => ⟨"SUB", [opX x], 1, tagsSub⟩
  | .subN _      => ⟨"SUB", [opImm .n8], 2, tagsSub⟩
  | .add x       => ⟨"ADD", [opReg .a, opX x], 1, tagsAdd⟩
  | .addN _      => ⟨"ADD", [opReg .a, opImm .n8], 2, tagsAdd⟩
  | .and x       => ⟨"AND", [opX x], 1, tagsAnd⟩
  | .andN _      => ⟨"AND", [opImm .n8], 2, tagsAnd⟩
  | .or x        => ⟨"OR", [opX x], 1, tagsOr⟩
  | .orN _       => ⟨"OR", [opImm .n8], 2, tagsOr⟩
  | .xor x       => ⟨"XOR", [opX x], 1, tagsOr⟩
  | .xorN _      => ⟨"XOR", [opImm .n8], 2, tagsOr⟩
  | .inc8 x      => ⟨"INC", [opX x], 1, tagsInc⟩
  | .dec8 x      => ⟨"DEC", [opX x], 1, tagsDec⟩
  | .incRr p     => ⟨"INC", [opRp p], 1, tagsNone⟩
  | .decRr p     => ⟨"DEC", [opRp p], 1, tagsNone⟩
  | .bit b x     => ⟨"BIT", [opImm (.digit b), opX x], 2, tagsBit⟩
  | .rl x        => ⟨"RL", [opX x], 2, tagsRot⟩
  | .rla         => ⟨"RLA", [], 1, tagsRotA⟩
  | .rr x        => ⟨"RR", [opX x], 2, tagsRot⟩
  | .rra         => ⟨"RRA", [], 1, tagsRotA⟩
  | .srl x       => ⟨"SRL", [opX x], 2, tagsRot⟩
  | .rst t       => ⟨"RST", [opImm (.vector t)], 1, tagsNone⟩
  | .call _      => ⟨"CALL", [opImm .a16], 3, tagsNone⟩
  | .callCc cc _ => ⟨"CALL", [opImm (.cond cc), opImm .a16], 3, tagsNone⟩
  | .push p      => ⟨"PUSH", [opRp2 p], 1, tagsNone⟩
  | .pop .af     => ⟨"POP", [opRp2 .af], 1, tagsAll⟩
  | .pop p       => ⟨"POP", [opRp2 p], 1, tagsNone⟩
  | .ret         => ⟨"RET", [], 1, tagsNone⟩
  | .rlca        => ⟨"RLCA", [], 1, tagsRotA⟩
  | .rrca        => ⟨"RRCA", [], 1, tagsRotA⟩
  | .stop _      => ⟨"STOP", [opImm .n8], 2, tagsNone⟩
  | .daa         => ⟨"DAA", [], 1, ⟨.computed, .unaffected, .forced0, .computed⟩⟩
  | .cpl         => ⟨"CPL", [], 1, ⟨.unaffected, .forced1, .forced1, .unaffected⟩⟩
  | .scf         => ⟨"SCF", [], 1, ⟨.unaffected, .forced0, .forced0, .forced1⟩⟩
  | .ccf         => ⟨"CCF", [], 1, ⟨.unaffected, .forced0, .forced0, .computed⟩⟩
  | .halt        => ⟨"HALT", [], 1, tagsNone⟩
  | .adc x       => ⟨"ADC", [opReg .a, opX x], 1, tagsAdd⟩
  | .adcN _      => ⟨"ADC", [opReg .a, opImm .n8], 2, tagsAdd⟩
  | .sbc x       => ⟨"SBC", [opReg .a, opX x], 1, tagsSub⟩
  | .sbcN _      => ⟨"SBC", [opReg .a, opImm .n8], 2, tagsSub⟩
  | .addHlRr p   => ⟨"ADD", [opImm .hl, opRp p], 1, ⟨.unaffected, .forced0, .computed, .computed⟩⟩
  | .addSpE _    => ⟨"ADD", [opImm .sp, opImm .e8], 2, ⟨.forced0, .forced0, .computed, .computed⟩⟩
  | .retCc cc    => ⟨"RET", [opImm (.cond cc)], 1, tagsNone⟩
  | .reti        => ⟨"RETI", [], 1, tagsNone⟩
  | .ei          => ⟨"EI", [], 1, tagsNone⟩
  | .rlc x       => ⟨"RLC", [opX x], 2, tagsRot⟩
  | .rrc x       => ⟨"RRC", [opX x], 2, tagsRot⟩
  | .sla x       => ⟨"SLA", [opX x], 2, tagsRot⟩
  | .sra x       => ⟨"SRA", [opX x], 2, tagsRot⟩
  | .swap x      => ⟨"SWAP", [opX x], 2, tagsOr⟩
  | .res b x     => ⟨"RES", [opImm (.digit b), opX x], 2, tagsNone⟩
  | .set b x     => ⟨"SET", [opImm (.digit b), opX x], 2, tagsNone⟩
  | .noEntry _   => ⟨"no_entry", [], 1, tagsNone⟩
  | .escape _    => ⟨"(escape)", [], 1, tagsNone⟩

/-- The operand bytes a descriptor's operand stands for (R76, R103). -/
def operandBytes (o : OperandDesc) : Nat :=
  match o.name with
  | .n8 | .a8 | .e8 => 1
  | .n16 | .a16     => 2
  | _               => 0

/-- How many bytes FETCH and DECODE read for an instruction whose first byte is `op` (R70, R101, R103):
the escape byte and the second opcode byte, or the opcode and the operand bytes of its descriptor. -/
def fetchLength (op : Byte) : Nat :=
  if op = escapeByte then 2
  else 1 + ((rom (decodeOp op 0 0)).operands.map operandBytes).sum

/-! ### Decoding a list of bytes -/

/-- Why a list of bytes is not decoded: it ends before the instruction does. A step never meets this,
since it reads as many bytes as the first one asks for. -/
inductive DecodeError where
  | empty
  | truncated
deriving DecidableEq, Repr

/-- The first instruction of a list of bytes, and the bytes after it. -/
def decode : List Byte → Except DecodeError (Instr × List Byte)
  | []        => .error .empty
  | op :: bs  =>
    if bs.length + 1 < fetchLength op then .error .truncated
    else .ok (decodeOp op (bs.getD 0 0) (bs.getD 1 0), bs.drop (fetchLength op - 1))

/-! ### The encoder -/

/-- The bytes of an instruction in memory order (R71; the Encoding line of its rule). -/
def encode : Instr → List Byte
  | .nop         => [0x00]
  | .di          => [0xF3]
  | .jp a        => [0xC3, lo8 a, hi8 a]
  | .jpCc cc a   => [0xC2 + 8 * condCode cc, lo8 a, hi8 a]
  | .jpHl        => [0xE9]
  | .jr e        => [0x18, e]
  | .jrCc cc e   => [0x20 + 8 * condCode cc, e]
  | .ldRR dst r  => [0x40 + 8 * gregCode dst + gregCode r]
  | .ldRN dst n  => [0x06 + 8 * gregCode dst, n]
  | .ldRHl dst   => [0x46 + 8 * gregCode dst]
  | .ldHlR r     => [0x70 + gregCode r]
  | .ldHlN n     => [0x36, n]
  | .ldABc       => [0x0A]
  | .ldADe       => [0x1A]
  | .ldBcA       => [0x02]
  | .ldDeA       => [0x12]
  | .ldAHli      => [0x2A]
  | .ldAHld      => [0x3A]
  | .ldHliA      => [0x22]
  | .ldHldA      => [0x32]
  | .ldRrN p n   => [0x01 + 16 * rpCode p, lo8 n, hi8 n]
  | .ldSpHl      => [0xF9]
  | .ldA16A a    => [0xEA, lo8 a, hi8 a]
  | .ldAA16 a    => [0xFA, lo8 a, hi8 a]
  | .ldhA8A a    => [0xE0, a]
  | .ldhAA8 a    => [0xF0, a]
  | .ldA16Sp a   => [0x08, lo8 a, hi8 a]
  | .ldHlSpE e   => [0xF8, e]
  | .ldCA        => [0xE2]
  | .ldAC        => [0xF2]
  | .cp x        => [0xB8 + opnd8Code x]
  | .cpN n       => [0xFE, n]
  | .sub x       => [0x90 + opnd8Code x]
  | .subN n      => [0xD6, n]
  | .add x       => [0x80 + opnd8Code x]
  | .addN n      => [0xC6, n]
  | .and x       => [0xA0 + opnd8Code x]
  | .andN n      => [0xE6, n]
  | .or x        => [0xB0 + opnd8Code x]
  | .orN n       => [0xF6, n]
  | .xor x       => [0xA8 + opnd8Code x]
  | .xorN n      => [0xEE, n]
  | .inc8 x      => [0x04 + 8 * opnd8Code x]
  | .dec8 x      => [0x05 + 8 * opnd8Code x]
  | .incRr p     => [0x03 + 16 * rpCode p]
  | .decRr p     => [0x0B + 16 * rpCode p]
  | .bit b x     => [escapeByte, 0x40 + 8 * code3 b + opnd8Code x]
  | .rl x        => [escapeByte, 0x10 + opnd8Code x]
  | .rla         => [0x17]
  | .rr x        => [escapeByte, 0x18 + opnd8Code x]
  | .rra         => [0x1F]
  | .srl x       => [escapeByte, 0x38 + opnd8Code x]
  | .rst t       => [0xC7 + 8 * code3 t]
  | .call a      => [0xCD, lo8 a, hi8 a]
  | .callCc cc a => [0xC4 + 8 * condCode cc, lo8 a, hi8 a]
  | .push p      => [0xC5 + 16 * rp2Code p]
  | .pop p       => [0xC1 + 16 * rp2Code p]
  | .ret         => [0xC9]
  | .rlca        => [0x07]
  | .rrca        => [0x0F]
  | .stop n      => [0x10, n]
  | .daa         => [0x27]
  | .cpl         => [0x2F]
  | .scf         => [0x37]
  | .ccf         => [0x3F]
  | .halt        => [0x76]
  | .adc x       => [0x88 + opnd8Code x]
  | .adcN n      => [0xCE, n]
  | .sbc x       => [0x98 + opnd8Code x]
  | .sbcN n      => [0xDE, n]
  | .addHlRr p   => [0x09 + 16 * rpCode p]
  | .addSpE e    => [0xE8, e]
  | .retCc cc    => [0xC0 + 8 * condCode cc]
  | .reti        => [0xD9]
  | .ei          => [0xFB]
  | .rlc x       => [escapeByte, 0x00 + opnd8Code x]
  | .rrc x       => [escapeByte, 0x08 + opnd8Code x]
  | .sla x       => [escapeByte, 0x20 + opnd8Code x]
  | .sra x       => [escapeByte, 0x28 + opnd8Code x]
  | .swap x      => [escapeByte, 0x30 + opnd8Code x]
  | .res b x     => [escapeByte, 0x80 + 8 * code3 b + opnd8Code x]
  | .set b x     => [escapeByte, 0xC0 + 8 * code3 b + opnd8Code x]
  | .noEntry op  => [op]
  | .escape op   => [escapeByte, op]

/-! ### Table words -/

/-- The three bytes, the first at the lowest address, of a table word of `nbits` bits (every bit above
them 0). A prefixed row of opcode_table.json is numbered over `byte0 * 256 + byte1` (R89), so its escape
byte stands in bits 15 to 8; every other row has its first byte in bits 7 to 0 (log entry 12). -/
def tableBytes (nbits w : Nat) : List Byte :=
  let v := w % 2 ^ nbits
  if nbits = 16 ∧ v / 256 = 0xCB then [0xCB, BitVec.ofNat 8 v, 0]
  else [BitVec.ofNat 8 v, BitVec.ofNat 8 (v / 256), BitVec.ofNat 8 (v / 65536)]

/-- The instruction the decoder reads from a table word. -/
def decodeTableWord (nbits w : Nat) : Option Instr :=
  match decode (tableBytes nbits w) with
  | .ok (i, _) => some i
  | .error _   => none

end Sys2Proof
end

