-- ==== Sys2Proof/Config.lean ====
section
/-!
DEFINITION. What is fixed for a run (R4, R28): the OPEN parameters of the block as one plain record, the
fixed addresses, and the one free value of the model, the answer of a display register block about
which nothing is assumed (R43).
The record is carried by State, so that a statement about every state holds for every value of every
parameter; no step writes it.
-/

namespace Sys2Proof

/-- One transaction on the display port (R5 `io_addr`, `io_rd`, `io_wr`; R43, R44). -/
inductive PortEvent where
  /-- A delegated read of the address, and the byte the display register block answered. -/
  | read (a : Word) (v : Byte)
  /-- A delegated write of the byte to the address. -/
  | write (a : Word) (v : Byte)
deriving DecidableEq, Repr

/-- `JR_BASE_ADJUST` (R4, R140): only 0 and 2 are meaningful (93 U6), so no other value can be written. -/
inductive JrBase where
  /-- 0: D0's literal reading, the default. -/
  | literal
  /-- 2: the conventional behaviour of the emulated processor. -/
  | conventional
deriving DecidableEq, Repr

/-- What answers a delegated read (R43). -/
inductive IoDevice where
  /-- The reference device: `io_read(a) = M[a]`. -/
  | latch
  /-- Any display register block: every answer is a free value. -/
  | free
deriving DecidableEq, Repr

/-- The OPEN parameters that are fixed for a run (R4, R28). The launch values RESET_REGS, RESET_PC and
IMAGE are the fields of Machine.Launch. -/
structure Params where
  /-- `CARTRIDGE_SIZE`: no behaviour depends on it (R41). -/
  cartridgeSize : Nat
  /-- `LY_SENTINEL`: what a read of the scanline register returns (R45). -/
  lySentinel : Byte
  /-- `JR_BASE_ADJUST` (R140). -/
  jrBase : JrBase
  /-- `io_read` (R43). -/
  io : IoDevice
deriving DecidableEq, Repr

/-- The defaults of R4, with the reference device of R43 (log entries 3, 4, 5). -/
def Params.standard : Params where
  cartridgeSize := 0x8000
  lySentinel    := 0x90
  jrBase        := .literal
  io            := .latch

/-- `CARTRIDGE_SIZE` is at most 0xE000 (R4; a larger value is refused, 93 U17). -/
def Params.wf (p : Params) : Bool := p.cartridgeSize ≤ 0xE000

/-- FREE VALUE (log entry 5, DESIGN CHOICE): what a display register block about which nothing is
assumed answers to a delegated read of the address, after the port transactions listed (R43, "a draw:
any byte"; R55, it may react to what it is shown). It has no body: no proof can rest on a value of it. -/
opaque Config.ioAnswer : List PortEvent → Word → Byte

end Sys2Proof
end

