-- ==== Sys2Proof/Machine/State.lean ====
section
/-!
DEFINITION. The state of the block as plain data (R10 to R30), the values it has when reset is released,
and the reasons a step can stop.
The transient state of one step (flag proposal, redirect marker, decoded operands: R25) never outlives
the step and is local to the step's functions.
-/

namespace Sys2Proof.Machine

/-- The six faults of the block (R320). -/
inductive FaultName where
  /-- Raised in FETCH for a byte with no table entry (R321). -/
  | unknownOpcode
  /-- Raised in DISPATCH for an entry with no handler (R322). -/
  | unimplementedMnemonic
  /-- Raised in DISPATCH for an operand shape the handler has no case for (R323). -/
  | malformedOperand
  /-- Raised in FLAG-COMMIT when the proposal does not fit the declared tags (R324). -/
  | flagContractViolation
  /-- Raised by nothing: no entry carries an unrecognised register name (R325). -/
  | invalidRegisterName
  /-- Raised by nothing: 16 address bits cannot leave the routing table (R326). -/
  | outOfRangeAddress
deriving DecidableEq, Repr

/-- The direction of a bus access. -/
inductive Direction where
  | read | write
deriving DecidableEq, Repr

/-- One event of the diagnostic stream (R27, R46: `susp_addr`, `susp_wr`, `susp_data`). -/
structure SuspEvent where
  addr : Word
  dir  : Direction
  data : Byte
deriving DecidableEq, Repr

/-- One write of the display subsystem between two steps (R58): the cell `0xFF00 + offset`, which is one
of 0xFF00 to 0xFF4B by its type, and the byte. -/
structure DisplayWrite where
  offset : Fin 0x4C
  value  : Byte
deriving DecidableEq, Repr

/-- The primary store M (R24, R40): pairs of a cell index below 65536 and a byte, in one canonical form
(Memory.wf in Machine/Memory.lean), so that equal stores are equal data. -/
abbrev Memory := List Host.Cell

/-- The state of the block. The register pairs are views (R11) and take no field. -/
structure State where
  /-- Register A (R10). -/
  a : Byte
  /-- Register B (R10). -/
  b : Byte
  /-- Register C (R10). -/
  c : Byte
  /-- Register D (R10). -/
  d : Byte
  /-- Register E (R10). -/
  e : Byte
  /-- The flags register F, eight stored bits (R14, R15): Z, N, H, C in bits 7 to 4. -/
  f : Byte
  /-- Register H (R10). -/
  h : Byte
  /-- Register L (R10). -/
  l : Byte
  /-- The stack pointer (R12). -/
  sp : Word
  /-- The program counter (R13), which `pc_out` shows (R336). -/
  pc : Word
  /-- The primary store M (R24). -/
  mem : Memory
  /-- The fault latch (R26). -/
  fault : Option FaultName
  /-- The diagnostic stream, oldest event first (R27). -/
  susp : List SuspEvent
  /-- The transactions shown on the display port so far, oldest first (R43, R44, R57). -/
  port : List PortEvent
  /-- The model's own field: the writes the display subsystem will make, one batch before each coming
  step (R58; log entry 6). -/
  display : List (List DisplayWrite)
  /-- The model's own field: the OPEN parameters fixed for a run (R4, R28; log entry 3). -/
  params : Params
deriving DecidableEq, Repr

/-- What the host chooses before it releases reset (R350): RESET_REGS, RESET_PC and IMAGE. -/
structure Launch where
  a : Byte
  b : Byte
  c : Byte
  d : Byte
  e : Byte
  f : Byte
  h : Byte
  l : Byte
  sp : Word
  pc : Word
  image : Memory
deriving DecidableEq, Repr

/-- The defaults of R4 and R30: registers and SP zero, PC 0x0100, an image of zeros (log entries 1, 2). -/
def Launch.standard : Launch where
  a := 0
  b := 0
  c := 0
  d := 0
  e := 0
  f := 0
  h := 0
  l := 0
  sp := 0
  pc := 0x0100
  image := []

/-- The state when reset is released (R30, R350): the latch clear and the diagnostic stream empty; by the
model's choice (log entry 18), nothing yet shown on the display port, and no display move pending. -/
def State.launch (p : Params) (x : Launch) : State where
  a := x.a
  b := x.b
  c := x.c
  d := x.d
  e := x.e
  f := x.f
  h := x.h
  l := x.l
  sp := x.sp
  pc := x.pc
  mem := x.image
  fault := none
  susp := []
  port := []
  display := []
  params := p

/-- The machine right after reset, with the default of every OPEN parameter (R30, R350). -/
def State.reset : State := State.launch Params.standard Launch.standard

/-- Why a step can stop the run. -/
inductive Fault where
  /-- Raised by `step` alone: the fault latch is set, so the block takes no step (R117). Safe: R117 says
  there is no enabled transition, and the latch's own setting is the next state of the step before. -/
  | stopped (f : FaultName)
deriving DecidableEq, Repr

/-- Why an instruction can have no meaning. -/
inductive Refusal where
  /-- Raised by an arm of `exec` whose instruction has no meaning yet; no arm does. Safe. -/
  | notModelled (mnemonic : String)
deriving DecidableEq, Repr

/-- The outcome of a step or of an instruction. -/
abbrev Result := Host.Outcome State Fault Refusal

end Sys2Proof.Machine
end

