-- ==== Sys2Proof/Machine/Registers.lean ====
section
/-!
DEFINITION. The register file (R10 to R18): the one home of every register and the accessors all reads
and writes go through. The pair views are computed here (R11, R16).
-/

namespace Sys2Proof.Machine

/-- The eight 8-bit registers of the register file (R10). -/
inductive Reg8 where
  | a | b | c | d | e | f | h | l
deriving DecidableEq, Repr

/-- The 16-bit views of the register file (R16): the four pairs and the SP slot. -/
inductive Pair where
  | bc | de | hl | af | sp
deriving DecidableEq, Repr

/-- `R8[r]` (R15). -/
def State.get8 (s : State) : Reg8 → Byte
  | .a => s.a
  | .b => s.b
  | .c => s.c
  | .d => s.d
  | .e => s.e
  | .f => s.f
  | .h => s.h
  | .l => s.l

/-- `R8[r] <- v`, all eight bits stored, F included (R15). -/
def State.set8 (s : State) (r : Reg8) (v : Byte) : State :=
  match r with
  | .a => { s with a := v }
  | .b => { s with b := v }
  | .c => { s with c := v }
  | .d => { s with d := v }
  | .e => { s with e := v }
  | .f => { s with f := v }
  | .h => { s with h := v }
  | .l => { s with l := v }

/-- `SP <- w` (R12). -/
def State.setSp (s : State) (w : Word) : State := { s with sp := w }

/-- `PC <- w` (R13). -/
def State.setPc (s : State) (w : Word) : State := { s with pc := w }

/-- `R16[p]` (R16): the first letter is the high byte. -/
def State.get16 (s : State) : Pair → Word
  | .bc => cat s.b s.c
  | .de => cat s.d s.e
  | .hl => cat s.h s.l
  | .af => cat s.a s.f
  | .sp => s.sp

/-- `R16[p] <- w` (R16). -/
def State.set16 (s : State) (p : Pair) (w : Word) : State :=
  match p with
  | .bc => (s.set8 .b (hi8 w)).set8 .c (lo8 w)
  | .de => (s.set8 .d (hi8 w)).set8 .e (lo8 w)
  | .hl => (s.set8 .h (hi8 w)).set8 .l (lo8 w)
  | .af => (s.set8 .a (hi8 w)).set8 .f (lo8 w)
  | .sp => s.setSp w

/-- The register a register field names (R73). -/
def gregReg : GReg → Reg8
  | .a => .a
  | .b => .b
  | .c => .c
  | .d => .d
  | .e => .e
  | .h => .h
  | .l => .l

/-- The view an `rp` field names (R74). -/
def rpPair : Rp → Pair
  | .bc => .bc
  | .de => .de
  | .hl => .hl
  | .sp => .sp

/-- The view an `rp2` field names (R74). -/
def rp2Pair : Rp2 → Pair
  | .bc => .bc
  | .de => .de
  | .hl => .hl
  | .af => .af

end Sys2Proof.Machine
end

