-- ==== Sys2Proof/Machine/Flags.lean ====
section
/-!
DEFINITION. The flags (R14, R17), the flag proposal and the flag-contract verifier (R107 to R109), the
conditions (R111), and every result-and-flag computation the spec gives (R191, R192, R202, R205, R208,
R211, R213, R240).
-/

namespace Sys2Proof.Machine

/-! ### The flags in F -/

/-- The bit of F that holds a flag (R14). -/
def flagIndex : Flag → Nat
  | .z => 7
  | .n => 6
  | .h => 5
  | .c => 4

/-- The byte with only that bit set. -/
def flagMask (k : Flag) : Byte := BitVec.twoPow 8 (flagIndex k)

/-- `flag(k)` (R17). -/
def State.flag (s : State) (k : Flag) : Bool := s.f.getLsbD (flagIndex k)

/-- `set_flag(k, b)` on the byte F (R17): the one bit is set to b, the other three flags stay, and the
low nibble is cleared. -/
def setFlagByte (k : Flag) (b : Bool) (f : Byte) : Byte :=
  (if b then f ||| flagMask k else f &&& ~~~ flagMask k) &&& 0xF0

/-! ### Proposal, verification, commit -/

/-- The flag proposal (R25, R107): for each flag nothing, or one boolean. -/
structure Proposal where
  z : Option Bool
  n : Option Bool
  h : Option Bool
  c : Option Bool
deriving DecidableEq, Repr

/-- The empty proposal: every slot untouched. -/
def noFlags : Proposal := ⟨none, none, none, none⟩

/-- A proposal of all four flags. -/
def proposeAll (z n h c : Bool) : Proposal := ⟨some z, some n, some h, some c⟩

/-- A proposal of Z, N and H, with C untouched. -/
def proposeZNH (z n h : Bool) : Proposal := ⟨some z, some n, some h, none⟩

/-- Whether one slot of the proposal fits its declared tag (R108). -/
def slotFits : FlagTag → Option Bool → Bool
  | .unaffected, none       => true
  | .forced0,    some false => true
  | .forced1,    some true  => true
  | .computed,   some _     => true
  | _,           _          => false

/-- The flag-contract verification (R108). -/
def verify (t : FlagTags) (p : Proposal) : Bool :=
  slotFits t.z p.z && slotFits t.n p.n && slotFits t.h p.h && slotFits t.c p.c

/-- One slot committed to F: untouched keeps the byte (R109). -/
def commitSlot (k : Flag) (slot : Option Bool) (f : Byte) : Byte :=
  match slot with
  | none   => f
  | some b => setFlagByte k b f

/-- The commit of a proposal to the byte F (R109). -/
def commitByte (p : Proposal) (f : Byte) : Byte :=
  commitSlot .c p.c (commitSlot .h p.h (commitSlot .n p.n (commitSlot .z p.z f)))

/-- The commit of a proposal (R109): with no slot set, F is not written. -/
def State.commit (s : State) (p : Proposal) : State := s.set8 .f (commitByte p s.f)

/-- `cond(cc)` (R111), on the flags of the state given. -/
def State.cond (s : State) : Cond → Bool
  | .nz => !s.flag .z
  | .z  => s.flag .z
  | .nc => !s.flag .c
  | .c  => s.flag .c

/-! ### Results and their flags -/

/-- The outputs of the ALU: a result byte and the three computed flags. -/
structure AluOut where
  result : Byte
  carry  : Bool
  half   : Bool
  zero   : Bool
deriving DecidableEq, Repr

/-- `add8(a, v)` (R191). -/
def add8 (a v : Byte) : AluOut where
  result := BitVec.ofNat 8 (a.toNat + v.toNat)
  carry  := decide (a.toNat + v.toNat > 255)
  half   := decide (a.toNat % 16 + v.toNat % 16 > 15)
  zero   := decide (BitVec.ofNat 8 (a.toNat + v.toNat) = 0)

/-- `sub8(a, v)` (R192); its carry is the borrow. -/
def sub8 (a v : Byte) : AluOut where
  result := a - v
  carry  := decide (a.toNat < v.toNat)
  half   := decide (a.toNat % 16 < v.toNat % 16)
  zero   := decide (a - v = 0)

/-- The result and flags of 8-bit INC (R211); the carry slot is not proposed. -/
def inc8Out (v : Byte) : AluOut where
  result := v + 1
  carry  := false
  half   := decide (v.toNat % 16 = 15)
  zero   := decide (v + 1 = 0)

/-- The result and flags of 8-bit DEC (R213); the carry slot is not proposed. -/
def dec8Out (v : Byte) : AluOut where
  result := v - 1
  carry  := false
  half   := decide (v.toNat % 16 = 0)
  zero   := decide (v - 1 = 0)

/-- The outputs of a rotate or shift: the result and the bit moved out. -/
structure ShiftOut where
  result : Byte
  cout   : Bool
deriving DecidableEq, Repr

/-- `rl(v, cin)` (R240): bit 7 moves out, the old carry moves in at bit 0. -/
def rl8 (v : Byte) (cin : Bool) : ShiftOut where
  result := BitVec.ofNat 8 (v.toNat * 2 % 256 + cin.toNat)
  cout   := v.getLsbD 7

/-- `rr(v, cin)` (R240): bit 0 moves out, the old carry moves in at bit 7. -/
def rr8 (v : Byte) (cin : Bool) : ShiftOut where
  result := BitVec.ofNat 8 (cin.toNat * 128 + v.toNat / 2)
  cout   := v.getLsbD 0

/-- `srl(v)` (R240): bit 0 moves out, 0 moves in at bit 7. -/
def srl8 (v : Byte) : ShiftOut where
  result := BitVec.ofNat 8 (v.toNat / 2)
  cout   := v.getLsbD 0

/-- The proposal of 8-bit ADD (R199). -/
def flagsAdd (o : AluOut) : Proposal := proposeAll o.zero false o.half o.carry

/-- The proposal of SUB and CP (R193, R196). -/
def flagsSub (o : AluOut) : Proposal := proposeAll o.zero true o.half o.carry

/-- The proposal of AND (R202). -/
def flagsAnd (r : Byte) : Proposal := proposeAll (decide (r = 0)) false true false

/-- The proposal of OR and XOR (R205, R208). -/
def flagsOr (r : Byte) : Proposal := proposeAll (decide (r = 0)) false false false

/-- The proposal of 8-bit INC (R211). -/
def flagsInc (o : AluOut) : Proposal := proposeZNH o.zero false o.half

/-- The proposal of 8-bit DEC (R213). -/
def flagsDec (o : AluOut) : Proposal := proposeZNH o.zero true o.half

/-- The proposal of BIT (R230): Z is the inverse of the tested bit. -/
def flagsBit (v : Byte) (b : BitVec 3) : Proposal := proposeZNH (!v.getLsbD b.toNat) false true

/-- The proposal of RL, RR and SRL (R232, R235, R238). -/
def flagsRot (o : ShiftOut) : Proposal := proposeAll (decide (o.result = 0)) false false o.cout

/-- The proposal of RLA and RRA (R234, R237): Z is forced to 0. -/
def flagsRotA (o : ShiftOut) : Proposal := proposeAll false false false o.cout

end Sys2Proof.Machine
end

