-- ==== Sys2Proof/Machine/Memory.lean ====
section
/-!
DEFINITION. The cells of the primary store M (R24, R40): reading and writing one cell of the list, and its
canonical form. Routing of addresses to cells is the bus's (Machine/Ops.lean).
-/

namespace Sys2Proof.Machine

/-- What a cell not listed holds: the default IMAGE is zeros outside the cartridge bytes (R352; log
entry 1). -/
def Memory.unlisted : Byte := 0

/-- `M[k]`. -/
def Memory.read : Memory → Nat → Byte
  | [], _ => Memory.unlisted
  | (j, v) :: m, k => if k = j then v else Memory.read m k

/-- `M[k] <- v`, keeping the canonical form: writing the value of an unlisted cell removes the entry. -/
def Memory.write : Memory → Nat → Byte → Memory
  | [], k, v => if v = Memory.unlisted then [] else [(k, v)]
  | (j, w) :: m, k, v =>
    if k < j then
      if v = Memory.unlisted then (j, w) :: m else (k, v) :: (j, w) :: m
    else if k = j then
      if v = Memory.unlisted then m else (k, v) :: m
    else (j, w) :: Memory.write m k v

/-- The canonical form from cell `lo` up: cells strictly rising and below 65536, none equal to what an
unlisted cell holds. -/
def Memory.wfFrom (lo : Nat) : Memory → Bool
  | [] => true
  | (k, v) :: m =>
    decide (lo ≤ k) && decide (k < 65536) && decide (v ≠ Memory.unlisted) && Memory.wfFrom (k + 1) m

/-- The canonical form of the store. -/
def Memory.wf (m : Memory) : Bool := Memory.wfFrom 0 m

end Sys2Proof.Machine
end

