-- ==== Sys2Proof/Machine/Ops.lean ====
section
/-!
DEFINITION. The shared operations of every meaning: the memory bus (R40 to R50), the stack primitives
(R112, R113), taking a fault and the only way out of it (R328, R329, R350), and the last two stages of a
step, FLAG-COMMIT and ADVANCE (R108 to R110).
-/

namespace Sys2Proof.Machine

/-! ### The memory bus -/

/-- The seven ranges of the routing table (R41). -/
inductive Region where
  | cartridge | work | echo | sprite | display | suspicious | high
deriving DecidableEq, Repr

/-- The range an address falls in (R41); the bound between the first two is `CARTRIDGE_SIZE`. -/
def region (cartridgeSize : Nat) (a : Word) : Region :=
  if a.toNat ≤ 0xDFFF then
    if a.toNat < cartridgeSize then .cartridge else .work
  else if a.toNat ≤ 0xFDFF then .echo
  else if a.toNat ≤ 0xFEFF then .sprite
  else if a.toNat ≤ 0xFF4B then .display
  else if a.toNat ≤ 0xFF7F then .suspicious
  else .high

/-- The range of an address on this block. -/
def State.regionOf (s : State) (a : Word) : Region := region s.params.cartridgeSize a

/-- The cell of M an address resolves to (R41, R42): the echo range is the constant-offset alias of the
cells 0x2000 below; every other address is a direct index. -/
def cellOf (a : Word) : Nat :=
  if 0xE000 ≤ a.toNat ∧ a.toNat ≤ 0xFDFF then a.toNat - 0x2000 else a.toNat

/-- `LY_ADDR`, the scanline register (R4, R45). -/
def lyAddr : Word := 0xFF44

/-- The byte of M at the cell an address resolves to. -/
def State.cell (s : State) (a : Word) : Byte := s.mem.read (cellOf a)

/-- `M[cell] <- v` for the cell an address resolves to. -/
def State.setCell (s : State) (a : Word) (v : Byte) : State :=
  { s with mem := s.mem.write (cellOf a) v }

/-- One event on the diagnostic stream (R46). -/
def State.emitSusp (s : State) (a : Word) (d : Direction) (v : Byte) : State :=
  { s with susp := s.susp ++ [⟨a, d, v⟩] }

/-- One transaction on the display port (R43, R44). -/
def State.emitPort (s : State) (ev : PortEvent) : State :=
  { s with port := s.port ++ [ev] }

/-- `io_read(a)` (R43): the reference device answers `M[a]`; any other device answers a free value, which
may depend on every transaction it has been shown (R55). -/
def State.ioRead (s : State) (a : Word) : Byte :=
  match s.params.io with
  | .latch => s.cell a
  | .free  => Config.ioAnswer s.port a

/-- The byte `MemRead(a, 1)` returns (R50). -/
def State.busByte (s : State) (a : Word) : Byte :=
  match s.regionOf a with
  | .display => if a = lyAddr then s.params.lySentinel else s.ioRead a
  | _        => s.cell a

/-- The state after `MemRead(a, 1)` (R46, R50, R55): a delegated read is shown on the display port, but
not the overridden one (R45); a read of the suspicious range emits an event; no cell changes. -/
def State.afterRead (s : State) (a : Word) : State :=
  match s.regionOf a with
  | .display    => if a = lyAddr then s else s.emitPort (.read a (s.ioRead a))
  | .suspicious => s.emitSusp a .read (s.cell a)
  | _           => s

/-- `MemRead(a, 1)`: the byte, and the state after the read (R50). -/
def State.memRead (s : State) (a : Word) : Byte × State := (s.busByte a, s.afterRead a)

/-- `MemWrite(a, 1, v)` (R50). -/
def State.memWrite (s : State) (a : Word) (v : Byte) : State :=
  match s.regionOf a with
  | .display    => (s.emitPort (.write a v)).setCell a v
  | .suspicious => (s.emitSusp a .write v).setCell a v
  | _           => s.setCell a v

/-! ### The stack -/

/-- `Push16(w)` (R112): the high byte first, to SP - 1, then the low byte, to SP - 2. -/
def State.push16 (s : State) (w : Word) : State :=
  ((s.memWrite (s.sp - 1) (hi8 w)).memWrite (s.sp - 2) (lo8 w)).setSp (s.sp - 2)

/-- `Pop16()` (R113): the low byte from SP, then the high byte from SP + 1. -/
def State.pop16 (s : State) : Word × State :=
  let lo := s.memRead s.sp
  let hi := lo.2.memRead (s.sp + 1)
  (cat hi.1 lo.1, hi.2.setSp (s.sp + 2))

/-! ### Faults -/

/-- The fault latch set to a name (R26). -/
def State.latch (s : State) (f : FaultName) : State := { s with fault := some f }

/-- `raise Fault(name)` (R328), the taking of every fault: the latch records the name and the step ends.
Nothing is saved or pushed, no mode changes, control goes nowhere, and PC keeps the address of the
faulting instruction. The block then takes no step (R117; `step`). -/
def takeFault (f : FaultName) (s : State) : Result := .next (s.latch f)

/-- The way out of a fault: reset, and nothing else (R329, R350). The parameters are fixed for the block
(R28). DESIGN CHOICE (log entry 18): the spec does not give the reset state of the display register block
(R30), nor say what reset does to the moves of the display subsystem; here reset empties the port history,
so that a free device starts anew, and the display queue. -/
def resetBlock (x : Launch) (s : State) : State := State.launch s.params x

/-- The `fault_code` port (R320). -/
def faultCode : Option FaultName → BitVec 3
  | none                        => 0
  | some .unknownOpcode         => 1
  | some .unimplementedMnemonic => 2
  | some .malformedOperand      => 3
  | some .flagContractViolation => 4
  | some .invalidRegisterName   => 5
  | some .outOfRangeAddress     => 6

/-- The `fault_valid` port (R5). -/
def State.faultValid (s : State) : Bool := s.fault.isSome

/-! ### FLAG-COMMIT and ADVANCE -/

/-- ADVANCE (R110): a redirect writes PC and is told by its marker; otherwise PC moves by the length. -/
def State.advance (s : State) (length : Nat) (redirect : Option Word) : State :=
  match redirect with
  | some t => s.setPc t
  | none   => s.setPc (s.pc + BitVec.ofNat 16 length)

/-- The stages after DISPATCH (R100): verify the proposal against the descriptor's tags, commit it, and
advance. On a mismatch the handler's writes stay, nothing is committed and PC is not advanced (R108). -/
def complete (d : Descriptor) (p : Proposal) (redirect : Option Word) (s : State) : Result :=
  if verify d.tags p then .next ((s.commit p).advance d.length redirect)
  else takeFault .flagContractViolation s

end Sys2Proof.Machine
end

