-- ==== Sys2Proof/Machine/Operands.lean ====
section
/-!
DEFINITION. The operand forms of the handlers (R76, R77, R103 to R105): the 3-bit register operand, the
addresses of the memory operands, and the auto-adjust of HL.
-/

namespace Sys2Proof.Machine

/-- A register operand of an instruction read from the register file (R73, R15). -/
def State.getG (s : State) (r : GReg) : Byte := s.get8 (gregReg r)

/-- A register operand of an instruction written (R73, R15). -/
def State.setG (s : State) (r : GReg) (v : Byte) : State := s.set8 (gregReg r) v

/-- The byte `Read8(r)` returns (R105). -/
def State.opndByte (s : State) : Opnd8 → Byte
  | .reg r => s.getG r
  | .hlInd => s.busByte (s.get16 .hl)

/-- The state after `Read8(r)` (R105): a register read changes nothing. -/
def State.afterOpnd (s : State) : Opnd8 → State
  | .reg _ => s
  | .hlInd => s.afterRead (s.get16 .hl)

/-- `Read8(r)` (R105): the byte, and the state after the read. -/
def State.read8 (s : State) (x : Opnd8) : Byte × State := (s.opndByte x, s.afterOpnd x)

/-- `Write8(r, v)` (R105). -/
def State.write8 (s : State) (x : Opnd8) (v : Byte) : State :=
  match x with
  | .reg r => s.setG r v
  | .hlInd => s.memWrite (s.get16 .hl) v

/-- The address an `a8` operand stands for, `0xFF00 + a8` (R76, R167). -/
def highPage (a8 : Byte) : Word := 0xFF00 + zext16 a8

/-- `JR_BASE_ADJUST` (R140). -/
def jrAdjust : JrBase → Word
  | .literal      => 0
  | .conventional => 2

/-- The target of a taken relative jump (R140). -/
def State.jrTarget (s : State) (e8 : Byte) : Word := s.pc + sext16 e8 + jrAdjust s.params.jrBase

/-- The vector of RST, `8 * t` (R78). -/
def rstVector (t : BitVec 3) : Word := 8 * t.setWidth 16

/-- HL adjusted by +1, after the transfer (R104, R149). -/
def State.incHl (s : State) : State := s.set16 .hl (s.get16 .hl + 1)

/-- HL adjusted by -1, after the transfer (R104, R149). -/
def State.decHl (s : State) : State := s.set16 .hl (s.get16 .hl - 1)

end Sys2Proof.Machine
end

