-- ==== Sys2Proof/Machine/Alu.lean ====
section
/-!
DEFINITION. The 8-bit ALU and INC, DEC (44_alu.md). The left input is always A; the result goes to A, but
for CP, which discards it (R190).
-/

namespace Sys2Proof.Machine

/-- CP with the right input `v` (R193 to R195). -/
def aluCp (i : Instr) (v : Byte) (s : State) : Result :=
  complete (rom i) (flagsSub (sub8 s.a v)) none s

/-- SUB with the right input `v` (R196 to R198). -/
def aluSub (i : Instr) (v : Byte) (s : State) : Result :=
  complete (rom i) (flagsSub (sub8 s.a v)) none (s.set8 .a (sub8 s.a v).result)

/-- 8-bit ADD with the right input `v` (R199 to R201). -/
def aluAdd (i : Instr) (v : Byte) (s : State) : Result :=
  complete (rom i) (flagsAdd (add8 s.a v)) none (s.set8 .a (add8 s.a v).result)

/-- AND with the right input `v` (R202 to R204). -/
def aluAnd (i : Instr) (v : Byte) (s : State) : Result :=
  complete (rom i) (flagsAnd (s.a &&& v)) none (s.set8 .a (s.a &&& v))

/-- OR with the right input `v` (R205 to R207). -/
def aluOr (i : Instr) (v : Byte) (s : State) : Result :=
  complete (rom i) (flagsOr (s.a ||| v)) none (s.set8 .a (s.a ||| v))

/-- XOR with the right input `v` (R208 to R210). -/
def aluXor (i : Instr) (v : Byte) (s : State) : Result :=
  complete (rom i) (flagsOr (s.a ^^^ v)) none (s.set8 .a (s.a ^^^ v))

/-- CP r (R193) and CP [HL] (R194). -/
def execCp (x : Opnd8) (s : State) : Result :=
  let v := s.read8 x
  aluCp (.cp x) v.1 v.2

/-- CP n8 (R195). -/
def execCpN (n8 : Byte) (s : State) : Result := aluCp (.cpN n8) n8 s

/-- SUB r (R196) and SUB [HL] (R197). -/
def execSub (x : Opnd8) (s : State) : Result :=
  let v := s.read8 x
  aluSub (.sub x) v.1 v.2

/-- SUB n8 (R198). -/
def execSubN (n8 : Byte) (s : State) : Result := aluSub (.subN n8) n8 s

/-- ADD A, r (R199) and ADD A, [HL] (R200). -/
def execAdd (x : Opnd8) (s : State) : Result :=
  let v := s.read8 x
  aluAdd (.add x) v.1 v.2

/-- ADD A, n8 (R201). -/
def execAddN (n8 : Byte) (s : State) : Result := aluAdd (.addN n8) n8 s

/-- AND r (R202) and AND [HL] (R203). -/
def execAnd (x : Opnd8) (s : State) : Result :=
  let v := s.read8 x
  aluAnd (.and x) v.1 v.2

/-- AND n8 (R204). -/
def execAndN (n8 : Byte) (s : State) : Result := aluAnd (.andN n8) n8 s

/-- OR r (R205) and OR [HL] (R206). -/
def execOr (x : Opnd8) (s : State) : Result :=
  let v := s.read8 x
  aluOr (.or x) v.1 v.2

/-- OR n8 (R207). -/
def execOrN (n8 : Byte) (s : State) : Result := aluOr (.orN n8) n8 s

/-- XOR r (R208) and XOR [HL] (R209). -/
def execXor (x : Opnd8) (s : State) : Result :=
  let v := s.read8 x
  aluXor (.xor x) v.1 v.2

/-- XOR n8 (R210). -/
def execXorN (n8 : Byte) (s : State) : Result := aluXor (.xorN n8) n8 s

/-- INC r (R211) and INC [HL] (R212): C is not proposed. -/
def execInc8 (x : Opnd8) (s : State) : Result :=
  let v := s.read8 x
  let o := inc8Out v.1
  complete (rom (.inc8 x)) (flagsInc o) none (v.2.write8 x o.result)

/-- DEC r (R213) and DEC [HL] (R214): C is not proposed. -/
def execDec8 (x : Opnd8) (s : State) : Result :=
  let v := s.read8 x
  let o := dec8Out v.1
  complete (rom (.dec8 x)) (flagsDec o) none (v.2.write8 x o.result)

/-- INC rr (R215): no flag. -/
def execIncRr (p : Rp) (s : State) : Result :=
  complete (rom (.incRr p)) noFlags none (s.set16 (rpPair p) (s.get16 (rpPair p) + 1))

/-- DEC rr (R216): no flag. -/
def execDecRr (p : Rp) (s : State) : Result :=
  complete (rom (.decRr p)) noFlags none (s.set16 (rpPair p) (s.get16 (rpPair p) - 1))

end Sys2Proof.Machine
end

