-- ==== Sys2Proof/Machine/Control.lean ====
section
/-!
DEFINITION. NOP, DI and the jumps (41_nop_di.md, 42_jp_jr.md).
-/

namespace Sys2Proof.Machine

/-- NOP (R130): no effect. -/
def execNop (s : State) : Result := complete (rom .nop) noFlags none s

/-- DI (R131): exactly the effect of NOP; there is no interrupt state. -/
def execDi (s : State) : Result := complete (rom .di) noFlags none s

/-- JP a16 (R135): a redirect to the target. -/
def execJp (a16 : Word) (s : State) : Result := complete (rom (.jp a16)) noFlags (some a16) s

/-- JP cc, a16 (R138): `MalformedOperand`, whatever the flags. -/
def execJpCc (_cc : Cond) (_a16 : Word) (s : State) : Result := takeFault .malformedOperand s

/-- JP HL (R139): `MalformedOperand`. -/
def execJpHl (s : State) : Result := takeFault .malformedOperand s

/-- JR e8 (R136): a redirect to the target of R140. -/
def execJr (e8 : Byte) (s : State) : Result := complete (rom (.jr e8)) noFlags (some (s.jrTarget e8)) s

/-- JR cc, e8 (R137): a redirect when the condition holds. -/
def execJrCc (cc : Cond) (e8 : Byte) (s : State) : Result :=
  complete (rom (.jrCc cc e8)) noFlags (if s.cond cc then some (s.jrTarget e8) else none) s

end Sys2Proof.Machine
end

