-- ==== Sys2Proof/Machine/Rotate.lean ====
section
/-!
DEFINITION. BIT, the rotates through carry and SRL (45_bit_rotate_shift.md). The carry a rotate takes in
is the one in F before the step, since F changes only at FLAG-COMMIT (R107, R240).
-/

namespace Sys2Proof.Machine

/-- BIT b, r (R230) and BIT b, [HL] (R231). -/
def execBit (b : BitVec 3) (x : Opnd8) (s : State) : Result :=
  let v := s.read8 x
  complete (rom (.bit b x)) (flagsBit v.1 b) none v.2

/-- RL r (R232) and RL [HL] (R233). -/
def execRl (x : Opnd8) (s : State) : Result :=
  let v := s.read8 x
  let o := rl8 v.1 (s.flag .c)
  complete (rom (.rl x)) (flagsRot o) none (v.2.write8 x o.result)

/-- RLA (R234): Z is forced to 0. -/
def execRla (s : State) : Result :=
  let o := rl8 s.a (s.flag .c)
  complete (rom .rla) (flagsRotA o) none (s.set8 .a o.result)

/-- RR r (R235) and RR [HL] (R236). -/
def execRr (x : Opnd8) (s : State) : Result :=
  let v := s.read8 x
  let o := rr8 v.1 (s.flag .c)
  complete (rom (.rr x)) (flagsRot o) none (v.2.write8 x o.result)

/-- RRA (R237): Z is forced to 0. -/
def execRra (s : State) : Result :=
  let o := rr8 s.a (s.flag .c)
  complete (rom .rra) (flagsRotA o) none (s.set8 .a o.result)

/-- SRL r (R238) and SRL [HL] (R239). -/
def execSrl (x : Opnd8) (s : State) : Result :=
  let v := s.read8 x
  let o := srl8 v.1
  complete (rom (.srl x)) (flagsRot o) none (v.2.write8 x o.result)

end Sys2Proof.Machine
end

