-- ==== Sys2Proof/Machine/Unimplemented.lean ====
section
/-!
DEFINITION. The table entries that end in a fault (47_unimplemented.md). Each takes the fault its rule
names, as its whole effect (R270): nothing is written but the latch, and the semantics these mnemonics
have on the emulated processor are deliberately not given ("a model must not implement them").
-/

namespace Sys2Proof.Machine

/-- RLCA (R271): `UnimplementedMnemonic`. -/
def execRlca (s : State) : Result := takeFault .unimplementedMnemonic s

/-- RRCA (R272): `UnimplementedMnemonic`. -/
def execRrca (s : State) : Result := takeFault .unimplementedMnemonic s

/-- STOP; its operand byte has been read and is ignored (R273): `UnimplementedMnemonic`. -/
def execStop (_n8 : Byte) (s : State) : Result := takeFault .unimplementedMnemonic s

/-- DAA (R274): `UnimplementedMnemonic`. -/
def execDaa (s : State) : Result := takeFault .unimplementedMnemonic s

/-- CPL (R275): `UnimplementedMnemonic`. -/
def execCpl (s : State) : Result := takeFault .unimplementedMnemonic s

/-- SCF (R276): `UnimplementedMnemonic`. -/
def execScf (s : State) : Result := takeFault .unimplementedMnemonic s

/-- CCF (R277): `UnimplementedMnemonic`. -/
def execCcf (s : State) : Result := takeFault .unimplementedMnemonic s

/-- HALT (R278): `UnimplementedMnemonic`. -/
def execHalt (s : State) : Result := takeFault .unimplementedMnemonic s

/-- ADC A, r and ADC A, [HL]; the byte at HL is not read (R279): `UnimplementedMnemonic`. -/
def execAdc (_x : Opnd8) (s : State) : Result := takeFault .unimplementedMnemonic s

/-- ADC A, n8 (R279): `UnimplementedMnemonic`. -/
def execAdcN (_n8 : Byte) (s : State) : Result := takeFault .unimplementedMnemonic s

/-- SBC A, r and SBC A, [HL]; the byte at HL is not read (R280): `UnimplementedMnemonic`. -/
def execSbc (_x : Opnd8) (s : State) : Result := takeFault .unimplementedMnemonic s

/-- SBC A, n8 (R280): `UnimplementedMnemonic`. -/
def execSbcN (_n8 : Byte) (s : State) : Result := takeFault .unimplementedMnemonic s

/-- ADD HL, rr (R281): `UnimplementedMnemonic`. -/
def execAddHlRr (_p : Rp) (s : State) : Result := takeFault .unimplementedMnemonic s

/-- ADD SP, e8 (R282): `UnimplementedMnemonic`. -/
def execAddSpE (_e8 : Byte) (s : State) : Result := takeFault .unimplementedMnemonic s

/-- RET cc; the condition is not evaluated and nothing is popped (R283): `UnimplementedMnemonic`. -/
def execRetCc (_cc : Cond) (s : State) : Result := takeFault .unimplementedMnemonic s

/-- RETI (R284): `UnimplementedMnemonic`. -/
def execReti (s : State) : Result := takeFault .unimplementedMnemonic s

/-- EI (R285): `UnimplementedMnemonic`. -/
def execEi (s : State) : Result := takeFault .unimplementedMnemonic s

/-- RLC x (R286): `UnimplementedMnemonic`; the byte at HL is not read. -/
def execRlc (_x : Opnd8) (s : State) : Result := takeFault .unimplementedMnemonic s

/-- RRC x (R287): `UnimplementedMnemonic`; the byte at HL is not read. -/
def execRrc (_x : Opnd8) (s : State) : Result := takeFault .unimplementedMnemonic s

/-- SLA x (R288): `UnimplementedMnemonic`; the byte at HL is not read. -/
def execSla (_x : Opnd8) (s : State) : Result := takeFault .unimplementedMnemonic s

/-- SRA x (R289): `UnimplementedMnemonic`; the byte at HL is not read. -/
def execSra (_x : Opnd8) (s : State) : Result := takeFault .unimplementedMnemonic s

/-- SWAP x (R290): `UnimplementedMnemonic`; the byte at HL is not read. -/
def execSwap (_x : Opnd8) (s : State) : Result := takeFault .unimplementedMnemonic s

/-- RES b, x (R291): `UnimplementedMnemonic`; the byte at HL is not read. -/
def execRes (_b : BitVec 3) (_x : Opnd8) (s : State) : Result := takeFault .unimplementedMnemonic s

/-- SET b, x (R292): `UnimplementedMnemonic`; the byte at HL is not read. -/
def execSet (_b : BitVec 3) (_x : Opnd8) (s : State) : Result := takeFault .unimplementedMnemonic s

/-- A byte with no table entry (R293): `UnknownOpcode`, raised in FETCH with only that byte read. -/
def execNoEntry (_op : Byte) (s : State) : Result := takeFault .unknownOpcode s

end Sys2Proof.Machine
end

