-- ==== Sys2Proof/Machine/Escape.lean ====
section
/-!
DEFINITION. The escape byte (R79, R294): it has no operation of its own; the byte that follows selects an
entry of the prefixed table, and that entry's meaning is what runs.
-/

namespace Sys2Proof.Machine

/-- An entry of the prefixed table run as the instruction it is (R82). -/
def runCb (i : CbOp) (s : State) : Result :=
  match i with
  | .rlc x   => execRlc x s
  | .rrc x   => execRrc x s
  | .rl x    => execRl x s
  | .rr x    => execRr x s
  | .sla x   => execSla x s
  | .sra x   => execSra x s
  | .swap x  => execSwap x s
  | .srl x   => execSrl x s
  | .bit b x => execBit b x s
  | .res b x => execRes b x s
  | .set b x => execSet b x s

/-- The escape byte followed by `op` (R294). -/
def execEscape (op : Byte) (s : State) : Result := runCb (decodeCb op) s

end Sys2Proof.Machine
end

