-- ==== Sys2Proof/Machine/Load.lean ====
section
/-!
DEFINITION. LD and LDH (43_ld_ldh.md). Every implemented form copies one value, proposes no flag and does
not redirect (R149); the auto-adjusting forms change HL after the transfer.
-/

namespace Sys2Proof.Machine

/-- LD r, r' (R150). -/
def execLdRR (dst r : GReg) (s : State) : Result :=
  complete (rom (.ldRR dst r)) noFlags none (s.setG dst (s.getG r))

/-- LD r, n8 (R151). -/
def execLdRN (dst : GReg) (n8 : Byte) (s : State) : Result :=
  complete (rom (.ldRN dst n8)) noFlags none (s.setG dst n8)

/-- LD r, [HL] (R152): the address is HL as it was before the write. -/
def execLdRHl (dst : GReg) (s : State) : Result :=
  let v := s.memRead (s.get16 .hl)
  complete (rom (.ldRHl dst)) noFlags none (v.2.setG dst v.1)

/-- LD [HL], r (R153). -/
def execLdHlR (r : GReg) (s : State) : Result :=
  complete (rom (.ldHlR r)) noFlags none (s.memWrite (s.get16 .hl) (s.getG r))

/-- LD [HL], n8 (R154). -/
def execLdHlN (n8 : Byte) (s : State) : Result :=
  complete (rom (.ldHlN n8)) noFlags none (s.memWrite (s.get16 .hl) n8)

/-- LD A, [BC] (R155). -/
def execLdABc (s : State) : Result :=
  let v := s.memRead (s.get16 .bc)
  complete (rom .ldABc) noFlags none (v.2.set8 .a v.1)

/-- LD A, [DE] (R156). -/
def execLdADe (s : State) : Result :=
  let v := s.memRead (s.get16 .de)
  complete (rom .ldADe) noFlags none (v.2.set8 .a v.1)

/-- LD [BC], A (R157). -/
def execLdBcA (s : State) : Result :=
  complete (rom .ldBcA) noFlags none (s.memWrite (s.get16 .bc) s.a)

/-- LD [DE], A (R158). -/
def execLdDeA (s : State) : Result :=
  complete (rom .ldDeA) noFlags none (s.memWrite (s.get16 .de) s.a)

/-- LD A, [HL+] (R159): the value is read first, HL is adjusted after. -/
def execLdAHli (s : State) : Result :=
  let v := s.memRead (s.get16 .hl)
  complete (rom .ldAHli) noFlags none (v.2.set8 .a v.1).incHl

/-- LD A, [HL-] (R160). -/
def execLdAHld (s : State) : Result :=
  let v := s.memRead (s.get16 .hl)
  complete (rom .ldAHld) noFlags none (v.2.set8 .a v.1).decHl

/-- LD [HL+], A (R161). -/
def execLdHliA (s : State) : Result :=
  complete (rom .ldHliA) noFlags none (s.memWrite (s.get16 .hl) s.a).incHl

/-- LD [HL-], A (R162). -/
def execLdHldA (s : State) : Result :=
  complete (rom .ldHldA) noFlags none (s.memWrite (s.get16 .hl) s.a).decHl

/-- LD rr, n16 (R163). -/
def execLdRrN (p : Rp) (n16 : Word) (s : State) : Result :=
  complete (rom (.ldRrN p n16)) noFlags none (s.set16 (rpPair p) n16)

/-- LD SP, HL (R164). -/
def execLdSpHl (s : State) : Result :=
  complete (rom .ldSpHl) noFlags none (s.set16 .sp (s.get16 .hl))

/-- LD [a16], A (R165). -/
def execLdA16A (a16 : Word) (s : State) : Result :=
  complete (rom (.ldA16A a16)) noFlags none (s.memWrite a16 s.a)

/-- LD A, [a16] (R166). -/
def execLdAA16 (a16 : Word) (s : State) : Result :=
  let v := s.memRead a16
  complete (rom (.ldAA16 a16)) noFlags none (v.2.set8 .a v.1)

/-- LDH [a8], A (R167): the address is `0xFF00 + a8`. -/
def execLdhA8A (a8 : Byte) (s : State) : Result :=
  complete (rom (.ldhA8A a8)) noFlags none (s.memWrite (highPage a8) s.a)

/-- LDH A, [a8] (R168). -/
def execLdhAA8 (a8 : Byte) (s : State) : Result :=
  let v := s.memRead (highPage a8)
  complete (rom (.ldhAA8 a8)) noFlags none (v.2.set8 .a v.1)

/-- LD [a16], SP (R169): `MalformedOperand`; there is no 16-bit store. -/
def execLdA16Sp (_a16 : Word) (s : State) : Result := takeFault .malformedOperand s

/-- LD HL, SP+e8 (R170): `MalformedOperand`, before the verifier could object. -/
def execLdHlSpE (_e8 : Byte) (s : State) : Result := takeFault .malformedOperand s

/-- LD [C], A (R171): `MalformedOperand`; no address rule exists for it. -/
def execLdCA (s : State) : Result := takeFault .malformedOperand s

/-- LD A, [C] (R172): `MalformedOperand`. -/
def execLdAC (s : State) : Result := takeFault .malformedOperand s

end Sys2Proof.Machine
end

