-- ==== Sys2Proof/Machine/Stack.lean ====
section
/-!
DEFINITION. RST, CALL, PUSH, POP and RET (46_stack_call_ret.md).
-/

namespace Sys2Proof.Machine

/-- RST t (R250): pushes pc, the address of the RST byte itself, and redirects to the vector. -/
def execRst (t : BitVec 3) (s : State) : Result :=
  complete (rom (.rst t)) noFlags (some (rstVector t)) (s.push16 s.pc)

/-- The return address of a CALL, `pc + instruction length` (R251). -/
def callReturn (d : Descriptor) (s : State) : Word := s.pc + BitVec.ofNat 16 d.length

/-- CALL a16 (R251). -/
def execCall (a16 : Word) (s : State) : Result :=
  complete (rom (.call a16)) noFlags (some a16) (s.push16 (callReturn (rom (.call a16)) s))

/-- CALL cc, a16 (R252): nothing is pushed when the condition fails. -/
def execCallCc (cc : Cond) (a16 : Word) (s : State) : Result :=
  if s.cond cc then
    complete (rom (.callCc cc a16)) noFlags (some a16) (s.push16 (callReturn (rom (.callCc cc a16)) s))
  else complete (rom (.callCc cc a16)) noFlags none s

/-- PUSH rr (R253). -/
def execPush (p : Rp2) (s : State) : Result :=
  complete (rom (.push p)) noFlags none (s.push16 (s.get16 (rp2Pair p)))

/-- POP rr (R254) and POP AF (R255): one handler, a plain transfer that proposes no flag; the tags
`Z N H C` of POP AF make the verifier reject it after A, F and SP are written. -/
def execPop (p : Rp2) (s : State) : Result :=
  let w := s.pop16
  complete (rom (.pop p)) noFlags none (w.2.set16 (rp2Pair p) w.1)

/-- RET (R256). -/
def execRet (s : State) : Result :=
  let w := s.pop16
  complete (rom .ret) noFlags (some w.1) w.2

end Sys2Proof.Machine
end

