-- ==== Sys2Proof/Machine/Dispatch.lean ====
section
/-!
DEFINITION. The dispatch (R106): one arm per instruction, each one direct call of its meaning.
-/

namespace Sys2Proof.Machine

/-- DISPATCH, FLAG-COMMIT and ADVANCE of one decoded instruction (R100). -/
def exec (i : Instr) (s : State) : Host.Outcome State Fault Refusal :=
  match i with
  | .nop => Sys2Proof.Machine.execNop s
  | .di => Sys2Proof.Machine.execDi s
  | .jp a16 => Sys2Proof.Machine.execJp a16 s
  | .jpCc cc a16 => Sys2Proof.Machine.execJpCc cc a16 s
  | .jpHl => Sys2Proof.Machine.execJpHl s
  | .jr e8 => Sys2Proof.Machine.execJr e8 s
  | .jrCc cc e8 => Sys2Proof.Machine.execJrCc cc e8 s
  | .ldRR dst r => Sys2Proof.Machine.execLdRR dst r s
  | .ldRN dst n8 => Sys2Proof.Machine.execLdRN dst n8 s
  | .ldRHl dst => Sys2Proof.Machine.execLdRHl dst s
  | .ldHlR r => Sys2Proof.Machine.execLdHlR r s
  | .ldHlN n8 => Sys2Proof.Machine.execLdHlN n8 s
  | .ldABc => Sys2Proof.Machine.execLdABc s
  | .ldADe => Sys2Proof.Machine.execLdADe s
  | .ldBcA => Sys2Proof.Machine.execLdBcA s
  | .ldDeA => Sys2Proof.Machine.execLdDeA s
  | .ldAHli => Sys2Proof.Machine.execLdAHli s
  | .ldAHld => Sys2Proof.Machine.execLdAHld s
  | .ldHliA => Sys2Proof.Machine.execLdHliA s
  | .ldHldA => Sys2Proof.Machine.execLdHldA s
  | .ldRrN p n16 => Sys2Proof.Machine.execLdRrN p n16 s
  | .ldSpHl => Sys2Proof.Machine.execLdSpHl s
  | .ldA16A a16 => Sys2Proof.Machine.execLdA16A a16 s
  | .ldAA16 a16 => Sys2Proof.Machine.execLdAA16 a16 s
  | .ldhA8A a8 => Sys2Proof.Machine.execLdhA8A a8 s
  | .ldhAA8 a8 => Sys2Proof.Machine.execLdhAA8 a8 s
  | .ldA16Sp a16 => Sys2Proof.Machine.execLdA16Sp a16 s
  | .ldHlSpE e8 => Sys2Proof.Machine.execLdHlSpE e8 s
  | .ldCA => Sys2Proof.Machine.execLdCA s
  | .ldAC => Sys2Proof.Machine.execLdAC s
  | .cp x => Sys2Proof.Machine.execCp x s
  | .cpN n8 => Sys2Proof.Machine.execCpN n8 s
  | .sub x => Sys2Proof.Machine.execSub x s
  | .subN n8 => Sys2Proof.Machine.execSubN n8 s
  | .add x => Sys2Proof.Machine.execAdd x s
  | .addN n8 => Sys2Proof.Machine.execAddN n8 s
  | .and x => Sys2Proof.Machine.execAnd x s
  | .andN n8 => Sys2Proof.Machine.execAndN n8 s
  | .or x => Sys2Proof.Machine.execOr x s
  | .orN n8 => Sys2Proof.Machine.execOrN n8 s
  | .xor x => Sys2Proof.Machine.execXor x s
  | .xorN n8 => Sys2Proof.Machine.execXorN n8 s
  | .inc8 x => Sys2Proof.Machine.execInc8 x s
  | .dec8 x => Sys2Proof.Machine.execDec8 x s
  | .incRr p => Sys2Proof.Machine.execIncRr p s
  | .decRr p => Sys2Proof.Machine.execDecRr p s
  | .bit b x => Sys2Proof.Machine.execBit b x s
  | .rl x => Sys2Proof.Machine.execRl x s
  | .rla => Sys2Proof.Machine.execRla s
  | .rr x => Sys2Proof.Machine.execRr x s
  | .rra => Sys2Proof.Machine.execRra s
  | .srl x => Sys2Proof.Machine.execSrl x s
  | .rst t => Sys2Proof.Machine.execRst t s
  | .call a16 => Sys2Proof.Machine.execCall a16 s
  | .callCc cc a16 => Sys2Proof.Machine.execCallCc cc a16 s
  | .push p => Sys2Proof.Machine.execPush p s
  | .pop p => Sys2Proof.Machine.execPop p s
  | .ret => Sys2Proof.Machine.execRet s
  | .rlca => Sys2Proof.Machine.execRlca s
  | .rrca => Sys2Proof.Machine.execRrca s
  | .stop n8 => Sys2Proof.Machine.execStop n8 s
  | .daa => Sys2Proof.Machine.execDaa s
  | .cpl => Sys2Proof.Machine.execCpl s
  | .scf => Sys2Proof.Machine.execScf s
  | .ccf => Sys2Proof.Machine.execCcf s
  | .halt => Sys2Proof.Machine.execHalt s
  | .adc x => Sys2Proof.Machine.execAdc x s
  | .adcN n8 => Sys2Proof.Machine.execAdcN n8 s
  | .sbc x => Sys2Proof.Machine.execSbc x s
  | .sbcN n8 => Sys2Proof.Machine.execSbcN n8 s
  | .addHlRr p => Sys2Proof.Machine.execAddHlRr p s
  | .addSpE e8 => Sys2Proof.Machine.execAddSpE e8 s
  | .retCc cc => Sys2Proof.Machine.execRetCc cc s
  | .reti => Sys2Proof.Machine.execReti s
  | .ei => Sys2Proof.Machine.execEi s
  | .rlc x => Sys2Proof.Machine.execRlc x s
  | .rrc x => Sys2Proof.Machine.execRrc x s
  | .sla x => Sys2Proof.Machine.execSla x s
  | .sra x => Sys2Proof.Machine.execSra x s
  | .swap x => Sys2Proof.Machine.execSwap x s
  | .res b x => Sys2Proof.Machine.execRes b x s
  | .set b x => Sys2Proof.Machine.execSet b x s
  | .noEntry op => Sys2Proof.Machine.execNoEntry op s
  | .escape op => Sys2Proof.Machine.execEscape op s

end Sys2Proof.Machine
end

