-- ==== Sys2Proof/Machine/Fetch.lean ====
section
/-!
DEFINITION. What happens in a step before DISPATCH: the display subsystem's moves between two steps
(R58), and FETCH and DECODE, which read the instruction's bytes through the bus (R101 to R103).
-/

namespace Sys2Proof.Machine

/-- One write of the display subsystem (R58): a cell of 0xFF00 to 0xFF4B, by no bus access of the
engine's. -/
def displayWrite (s : State) (w : DisplayWrite) : State :=
  { s with mem := s.mem.write (0xFF00 + w.offset.val) w.value }

/-- The display subsystem's moves before a step (R58): the next batch of the queue, in order; none when
the queue is empty, which is the closed model with no display agent (log entry 6). -/
def displayTurn (s : State) : State :=
  match s.display with
  | []          => s
  | ws :: queue => ws.foldl displayWrite { s with display := queue }

/-- `n` bytes read through the bus from the address up, the lowest first (R51, R57). -/
def fetchBytes : Nat → Word → State → List Byte × State
  | 0,     _, s => ([], s)
  | n + 1, a, s =>
    let v := s.memRead a
    let r := fetchBytes n (a + 1) v.2
    (v.1 :: r.1, r.2)

/-- The bytes of the instruction at PC, in the order FETCH and DECODE read them, and the state after the
reads (R57, R101, R103): the first byte tells how many more are read. -/
def fetchInstr (s : State) : List Byte × State :=
  let v := s.memRead s.pc
  let r := fetchBytes (fetchLength v.1 - 1) (s.pc + 1) v.2
  (v.1 :: r.1, r.2)

/-- The instruction that bytes fetched together are (R86). -/
def decodeFetched (bs : List Byte) : Instr := decodeOp (bs.getD 0 0) (bs.getD 1 0) (bs.getD 2 0)

/-- FETCH and DECODE (R101, R103): the instruction at PC, and the state after the reads. -/
def fetch (s : State) : Instr × State := (decodeFetched (fetchInstr s).1, (fetchInstr s).2)

/-- A list of bytes placed in the cells the addresses from `a` up resolve to, by no bus access: what the
host's image_load path does (R5, R352). -/
def placeBytes : List Byte → Word → State → State
  | [],      _, s => s
  | v :: vs, a, s => placeBytes vs (a + 1) (s.setCell a v)

end Sys2Proof.Machine
end

