-- ==== Sys2Proof/Machine/Step.lean ====
section
/-!
DEFINITION. One step of the block (R100): no step when the fault latch is set; otherwise the display
subsystem's turn, FETCH and DECODE, then DISPATCH, FLAG-COMMIT and ADVANCE of the decoded instruction.
-/

namespace Sys2Proof.Machine

/-- `Step()` (R100, R117). -/
def step (s : State) : Host.Outcome State Fault Refusal :=
  match s.fault with
  | some f => .fault (.stopped f)
  | none   => exec (fetch (displayTurn s)).1 (fetch (displayTurn s)).2

/-- The state with a table word placed at PC as the loader would place it (R5, R352; log entry 11): the
three bytes of an instruction of the greatest length, in the cells that PC, PC+1 and PC+2 resolve to. -/
def State.withFetchWord (s : State) (nbits w : Nat) : State := placeBytes (tableBytes nbits w) s.pc s

end Sys2Proof.Machine
end

