-- ==== Sys2Proof/Safety.lean ====
section
/-!
DEFINITION. What counts as a good state and a safe run, and the tables of the spec that claims about every
instruction are stated in: the fault an entry ends in, the addresses it stores to, the registers it
writes, and whether it may redirect. The tables are written from the rules, not from the meanings.
-/

namespace Sys2Proof.Machine

/-- A launch the block accepts: the image in canonical form, and F with a zero low nibble (R30; any other
is refused, 93 U15). -/
def Launch.wf (x : Launch) : Bool := x.image.wf && decide (x.f &&& 0x0F = 0)

/-- The invariant of every run (R18, R24, R4): M in its canonical form, the parameters legal, and, while
no fault is latched, F with a zero low nibble. -/
abbrev State.Inv (s : State) : Prop :=
  s.mem.wf = true ∧ s.params.wf = true ∧ (s.fault = none → s.f &&& 0x0F = 0)

/-- A run of `n` steps is safe when it meets no latched fault: a faulted state is a failure, not a normal
end (R117, R365). -/
def SafeRun (n : Nat) (s : State) : Prop :=
  ∃ t, Sys2Proof.core.run n s = .next t ∧ t.fault = none

/-- F with the four flags given and a zero low nibble (R14). -/
def flagByte (z n h c : Bool) : Byte :=
  BitVec.ofBool z ++ BitVec.ofBool n ++ BitVec.ofBool h ++ BitVec.ofBool c ++ 0#4

/-- A word one further on, modulo 65536 (R104, R215). -/
def succ16 (w : Word) : Word := BitVec.ofNat 16 ((w.toNat + 1) % 65536)

/-- A word one back, modulo 65536 (R104, R216). -/
def pred16 (w : Word) : Word := BitVec.ofNat 16 ((w.toNat + 65535) % 65536)

/-- A flag-effect tag as the Flags line of a rule writes it (R8): `-` unaffected, `0` and `1` forced, the
flag's own letter computed. -/
def tagOfChar (c : Char) : FlagTag :=
  if c = '-' then .unaffected else if c = '0' then .forced0 else if c = '1' then .forced1 else .computed

/-- The Encoding line and the declared tags of a rule, in the order Z N H C: the bytes of an instruction in
memory order, as many as the length in its ROM entry, and the entry's four tags (R8, R70, R80). The byte
values, the lengths and the tags are the spec's own decision D6, and a clause of this form rests on it. -/
def Entry (i : Instr) (bytes : List Byte) (z n h c : Char) : Prop :=
  encode i = bytes ∧ (rom i).length = bytes.length ∧
  (rom i).tags = ⟨tagOfChar z, tagOfChar n, tagOfChar h, tagOfChar c⟩

/-- The declared tag of one flag. -/
def tagOf (t : FlagTags) : Flag → FlagTag
  | .z => t.z
  | .n => t.n
  | .h => t.h
  | .c => t.c

/-- The slot of one flag in a proposal. -/
def slotOf (p : Proposal) : Flag → Option Bool
  | .z => p.z
  | .n => p.n
  | .h => p.h
  | .c => p.c

/-- The fault every execution of an entry of the prefixed table ends in (R286 to R292). -/
def cbFault : CbOp → Option FaultName
  | .rlc _ | .rrc _ | .sla _ | .sra _ | .swap _ | .res _ _ | .set _ _ => some .unimplementedMnemonic
  | .rl _ | .rr _ | .srl _ | .bit _ _ => none

/-- The fault every execution of an instruction ends in, or none (the `fault` column of the table, R89,
R320). -/
def faultOf : Instr → Option FaultName
  | .noEntry _ => some .unknownOpcode
  | .rlca | .rrca | .stop _ | .daa | .cpl | .scf | .ccf | .halt | .adc _ | .adcN _ | .sbc _ | .sbcN _
  | .addHlRr _ | .addSpE _ | .retCc _ | .reti | .ei
  | .rlc _ | .rrc _ | .sla _ | .sra _ | .swap _ | .res _ _ | .set _ _ => some .unimplementedMnemonic
  | .jpCc _ _ | .jpHl | .ldA16Sp _ | .ldHlSpE _ | .ldCA | .ldAC => some .malformedOperand
  | .pop .af => some .flagContractViolation
  | .escape op => cbFault (decodeCb op)
  | .nop | .di | .jp _ | .jr _ | .jrCc _ _ | .ldRR _ _ | .ldRN _ _ | .ldRHl _ | .ldHlR _ | .ldHlN _
  | .ldABc | .ldADe | .ldBcA | .ldDeA | .ldAHli | .ldAHld | .ldHliA | .ldHldA | .ldRrN _ _ | .ldSpHl
  | .ldA16A _ | .ldAA16 _ | .ldhA8A _ | .ldhAA8 _ | .cp _ | .cpN _ | .sub _ | .subN _ | .add _ | .addN _
  | .and _ | .andN _ | .or _ | .orN _ | .xor _ | .xorN _ | .inc8 _ | .dec8 _ | .incRr _ | .decRr _
  | .bit _ _ | .rl _ | .rla | .rr _ | .rra | .srl _ | .rst _ | .call _ | .callCc _ _ | .push _
  | .pop .bc | .pop .de | .pop .hl | .ret => none

/-- The address a read-modify-write operand stores to (R105): none for a register. -/
def opndStore (s : State) : Opnd8 → List Word
  | .reg _ => []
  | .hlInd => [s.get16 .hl]

/-- The two addresses a push stores to (R112). -/
def pushStore (s : State) : List Word := [s.sp - 1, s.sp - 2]

/-- The addresses an entry of the prefixed table stores to. -/
def cbStores (s : State) : CbOp → List Word
  | .rl x | .rr x | .srl x => opndStore s x
  | .rlc _ | .rrc _ | .sla _ | .sra _ | .swap _ | .res _ _ | .set _ _ | .bit _ _ => []

/-- The addresses an instruction stores to when it runs in a state, one per byte (the MemWrite lines of
its rule). -/
def storesOf (s : State) : Instr → List Word
  | .ldHlR _ | .ldHlN _ | .ldHliA | .ldHldA => [s.get16 .hl]
  | .ldBcA => [s.get16 .bc]
  | .ldDeA => [s.get16 .de]
  | .ldA16A a16 => [a16]
  | .ldhA8A a8 => [highPage a8]
  | .inc8 x | .dec8 x | .rl x | .rr x | .srl x => opndStore s x
  | .rst _ | .call _ | .push _ => pushStore s
  | .callCc cc _ => if s.cond cc then pushStore s else []
  | .escape op => cbStores s (decodeCb op)
  | .noEntry _ | .rlca | .rrca | .stop _ | .daa | .cpl | .scf | .ccf | .halt | .adc _ | .adcN _ | .sbc _
  | .sbcN _ | .addHlRr _ | .addSpE _ | .retCc _ | .reti | .ei | .rlc _ | .rrc _ | .sla _ | .sra _
  | .swap _ | .res _ _ | .set _ _ | .jpCc _ _ | .jpHl | .ldA16Sp _ | .ldHlSpE _ | .ldCA | .ldAC
  | .nop | .di | .jp _ | .jr _ | .jrCc _ _ | .ldRR _ _ | .ldRN _ _ | .ldRHl _ | .ldABc | .ldADe | .ldAHli
  | .ldAHld | .ldRrN _ _ | .ldSpHl | .ldAA16 _ | .ldhAA8 _ | .cp _ | .cpN _ | .sub _ | .subN _ | .add _
  | .addN _ | .and _ | .andN _ | .or _ | .orN _ | .xor _ | .xorN _ | .incRr _ | .decRr _ | .bit _ _ | .rla
  | .rra | .pop _ | .ret => []

/-- The register a read-modify-write operand writes (R105): none for [HL]. -/
def opndRegs : Opnd8 → List Reg8
  | .reg r => [gregReg r]
  | .hlInd => []

/-- The 8-bit registers of a pair operand; SP has none (R12). -/
def rpRegs : Rp → List Reg8
  | .bc => [.b, .c]
  | .de => [.d, .e]
  | .hl => [.h, .l]
  | .sp => []

/-- The 8-bit registers of a PUSH or POP operand. -/
def rp2Regs : Rp2 → List Reg8
  | .bc => [.b, .c]
  | .de => [.d, .e]
  | .hl => [.h, .l]
  | .af => [.a, .f]

/-- The 8-bit registers an entry of the prefixed table writes, F among them when it proposes a flag. -/
def cbRegs : CbOp → List Reg8
  | .rl x | .rr x | .srl x => .f :: opndRegs x
  | .bit _ _ => [.f]
  | .rlc _ | .rrc _ | .sla _ | .sra _ | .swap _ | .res _ _ | .set _ _ => []

/-- The 8-bit registers an instruction writes, F among them when it proposes a flag (R20, R21). -/
def regsOf : Instr → List Reg8
  | .ldRR dst _ | .ldRN dst _ | .ldRHl dst => [gregReg dst]
  | .ldABc | .ldADe | .ldAA16 _ | .ldhAA8 _ => [.a]
  | .ldAHli | .ldAHld => [.a, .h, .l]
  | .ldHliA | .ldHldA => [.h, .l]
  | .ldRrN p _ | .incRr p | .decRr p => rpRegs p
  | .cp _ | .cpN _ | .bit _ _ => [.f]
  | .sub _ | .subN _ | .add _ | .addN _ | .and _ | .andN _ | .or _ | .orN _ | .xor _ | .xorN _
  | .rla | .rra => [.a, .f]
  | .inc8 x | .dec8 x | .rl x | .rr x | .srl x => .f :: opndRegs x
  | .pop p => rp2Regs p
  | .escape op => cbRegs (decodeCb op)
  | .noEntry _ | .rlca | .rrca | .stop _ | .daa | .cpl | .scf | .ccf | .halt | .adc _ | .adcN _ | .sbc _
  | .sbcN _ | .addHlRr _ | .addSpE _ | .retCc _ | .reti | .ei | .rlc _ | .rrc _ | .sla _ | .sra _
  | .swap _ | .res _ _ | .set _ _ | .jpCc _ _ | .jpHl | .ldA16Sp _ | .ldHlSpE _ | .ldCA | .ldAC
  | .nop | .di | .jp _ | .jr _ | .jrCc _ _ | .ldHlR _ | .ldHlN _ | .ldBcA | .ldDeA | .ldSpHl | .ldA16A _
  | .ldhA8A _ | .rst _ | .call _ | .callCc _ _ | .push _ | .ret => []

/-- Whether an instruction writes SP (R20). -/
def writesSp : Instr → Bool
  | .ldRrN p _ | .incRr p | .decRr p => decide (p = .sp)
  | .ldSpHl | .rst _ | .call _ | .callCc _ _ | .push _ | .pop _ | .ret => true
  | .noEntry _ | .escape _ | .rlca | .rrca | .stop _ | .daa | .cpl | .scf | .ccf | .halt | .adc _ | .adcN _
  | .sbc _ | .sbcN _ | .addHlRr _ | .addSpE _ | .retCc _ | .reti | .ei | .rlc _ | .rrc _ | .sla _ | .sra _
  | .swap _ | .res _ _ | .set _ _ | .jpCc _ _ | .jpHl | .ldA16Sp _ | .ldHlSpE _ | .ldCA | .ldAC
  | .nop | .di | .jp _ | .jr _ | .jrCc _ _ | .ldRR _ _ | .ldRN _ _ | .ldRHl _ | .ldHlR _ | .ldHlN _
  | .ldABc | .ldADe | .ldBcA | .ldDeA | .ldAHli | .ldAHld | .ldHliA | .ldHldA | .ldA16A _ | .ldAA16 _
  | .ldhA8A _ | .ldhAA8 _ | .cp _ | .cpN _ | .sub _ | .subN _ | .add _ | .addN _ | .and _ | .andN _ | .or _
  | .orN _ | .xor _ | .xorN _ | .inc8 _ | .dec8 _ | .bit _ _ | .rl _ | .rla | .rr _ | .rra | .srl _ => false

/-- Whether an instruction is one of the redirecting handlers' (R110): JP, JR, CALL, RET, RST. -/
def mayRedirect : Instr → Bool
  | .jp _ | .jr _ | .jrCc _ _ | .rst _ | .call _ | .callCc _ _ | .ret => true
  | .noEntry _ | .escape _ | .rlca | .rrca | .stop _ | .daa | .cpl | .scf | .ccf | .halt | .adc _ | .adcN _
  | .sbc _ | .sbcN _ | .addHlRr _ | .addSpE _ | .retCc _ | .reti | .ei | .rlc _ | .rrc _ | .sla _ | .sra _
  | .swap _ | .res _ _ | .set _ _ | .jpCc _ _ | .jpHl | .ldA16Sp _ | .ldHlSpE _ | .ldCA | .ldAC
  | .nop | .di | .ldRR _ _ | .ldRN _ _ | .ldRHl _ | .ldHlR _ | .ldHlN _ | .ldRrN _ _ | .ldSpHl
  | .ldABc | .ldADe | .ldBcA | .ldDeA | .ldAHli | .ldAHld | .ldHliA | .ldHldA | .ldA16A _ | .ldAA16 _
  | .ldhA8A _ | .ldhAA8 _ | .cp _ | .cpN _ | .sub _ | .subN _ | .add _ | .addN _ | .and _ | .andN _ | .or _
  | .orN _ | .xor _ | .xorN _ | .inc8 _ | .dec8 _ | .incRr _ | .decRr _ | .bit _ _ | .rl _ | .rla | .rr _
  | .rra | .srl _ | .push _ | .pop _ => false

/-- An address in one of the ranges that hold what is written and show nothing on the display port: every
range but 0xFF00 to 0xFF4B (R46 to R48). -/
def storesPlainly (a : Word) : Prop := ¬ (0xFF00 ≤ a.toNat ∧ a.toNat ≤ 0xFF4B)

/-- An address whose reads have no side effect at all: outside 0xFF00 to 0xFF7F (R55). -/
def readsQuietly (a : Word) : Prop := ¬ (0xFF00 ≤ a.toNat ∧ a.toNat ≤ 0xFF7F)

end Sys2Proof.Machine
end

