-- ==== Sys2Proof/Certificates/Slice0/Obligations.lean ====
section
/-!
DEFINITION. The statements for the provers. A result is stated as the exact next state: a record update
says every field it does not name is unchanged, so each result statement holds its own frame. `pc` in a
rule is the `pc` of the state exec is given (R116). The Encoding line and the tags of a rule are said by
`Entry`; they, and with them the lengths PC moves by, are the spec's own decision D6.
-/

open Sys2Proof Sys2Proof.Machine

/-! ### Reset and the invariant -/

/-- R30, R350 to R352: what releasing reset leaves, for every launch and every parameter; the defaults of
State.reset (the spec's defaults of its OPEN parameters; log entries 1 and 2); and that reset clears the
latch. That the port history and the display queue are then empty is the model's choice (log entry 18). -/
def Obligations.ReleasingResetLeavesTheLaunchValues : Prop :=
  (∀ (p : Params) (x : Launch),
    State.launch p x =
      { a := x.a, b := x.b, c := x.c, d := x.d, e := x.e, f := x.f, h := x.h, l := x.l, sp := x.sp,
        pc := x.pc, mem := x.image, fault := none, susp := [], port := [], display := [], params := p }) ∧
  (∀ r : Reg8, State.reset.get8 r = 0) ∧ State.reset.sp = 0 ∧ State.reset.pc = 0x0100 ∧
  (∀ k : Nat, State.reset.mem.read k = 0) ∧ State.reset.fault = none ∧
  (∀ (x : Launch) (s : State), resetBlock x s = State.launch s.params x ∧ (resetBlock x s).fault = none)

/-- The invariant holds when reset is released, for every legal launch, and at State.reset. -/
def Obligations.ReleasingResetGivesTheInvariant : Prop :=
  State.reset.Inv ∧
  ∀ (p : Params) (x : Launch), p.wf = true → x.wf = true → (State.launch p x).Inv

/-- R18 and the model's memory form: from every state with the invariant, a step that answers a next
state keeps it. -/
def Obligations.EveryStepKeepsTheInvariant : Prop :=
  ∀ s t : State, s.Inv → step s = .next t → t.Inv

/-! ### The register file and the flags -/

/-- R11, R12, R15, R16: the accessor laws of the eight registers, the four pairs and the SP slot. -/
def Obligations.RegisterFileReadsBackWhatWasWritten : Prop :=
  ∀ s : State,
    (∀ (r : Reg8) (v : Byte), (s.set8 r v).get8 r = v ∧ (s.set8 r v).sp = s.sp ∧ (s.set8 r v).pc = s.pc ∧
      ∀ q : Reg8, q ≠ r → (s.set8 r v).get8 q = s.get8 q) ∧
    (∀ r : GReg, gregReg r ≠ .f) ∧
    (∀ (p : Pair) (w : Word), (s.set16 p w).get16 p = w) ∧
    (s.get16 .bc = cat (s.get8 .b) (s.get8 .c) ∧ s.get16 .de = cat (s.get8 .d) (s.get8 .e) ∧
      s.get16 .hl = cat (s.get8 .h) (s.get8 .l) ∧ s.get16 .af = cat (s.get8 .a) (s.get8 .f) ∧
      s.get16 .sp = s.sp) ∧
    (∀ w : Word,
      s.set16 .bc w = { s with b := w.extractLsb' 8 8, c := w.extractLsb' 0 8 } ∧
      s.set16 .de w = { s with d := w.extractLsb' 8 8, e := w.extractLsb' 0 8 } ∧
      s.set16 .hl w = { s with h := w.extractLsb' 8 8, l := w.extractLsb' 0 8 } ∧
      s.set16 .af w = { s with a := w.extractLsb' 8 8, f := w.extractLsb' 0 8 } ∧
      s.set16 .sp w = { s with sp := w })

/-- R14, R17: the bits of F that hold the flags, and a flag write: the one bit, no other flag, and a
cleared low nibble. -/
def Obligations.FlagWriteSetsOneBitAndClearsTheLowNibble : Prop :=
  (∀ s : State, s.flag .z = s.f.getLsbD 7 ∧ s.flag .n = s.f.getLsbD 6 ∧ s.flag .h = s.f.getLsbD 5 ∧
    s.flag .c = s.f.getLsbD 4) ∧
  ∀ (k : Flag) (b : Bool) (f : Byte),
    (setFlagByte k b f).getLsbD (flagIndex k) = b ∧
    (∀ j : Flag, j ≠ k → (setFlagByte k b f).getLsbD (flagIndex j) = f.getLsbD (flagIndex j)) ∧
    setFlagByte k b f &&& 0x0F = 0

/-- R109: the commit writes the flags whose slot is set and no other; with any slot set the low nibble
becomes 0; with none, F is not written. Nothing but F changes. -/
def Obligations.CommitWritesExactlyTheProposedFlags : Prop :=
  ∀ (s : State) (p : Proposal),
    s.commit p = { s with f := (s.commit p).f } ∧
    (∀ k : Flag, (s.commit p).flag k = (slotOf p k).getD (s.flag k)) ∧
    (p ≠ noFlags → (s.commit p).f &&& 0x0F = 0) ∧
    s.commit noFlags = s

/-- R108, R110: which proposals fit which tags; a fitting proposal is committed and PC is redirected or
advanced; a mismatch in any flag latches FlagContractViolation with the handler's writes kept, nothing
committed and PC not advanced. -/
def Obligations.VerifierCommitsOrLatches : Prop :=
  (∀ o : Option Bool, (slotFits .unaffected o = true ↔ o = none) ∧
    (slotFits .forced0 o = true ↔ o = some false) ∧ (slotFits .forced1 o = true ↔ o = some true) ∧
    (slotFits .computed o = true ↔ o ≠ none)) ∧
  ∀ (d : Descriptor) (p : Proposal) (r : Option Word) (s : State),
    ((∀ k : Flag, slotFits (tagOf d.tags k) (slotOf p k) = true) →
      complete d p r s = .next (match r with
        | some t => { s.commit p with pc := t }
        | none   => { s.commit p with pc := s.pc + BitVec.ofNat 16 d.length })) ∧
    ((∃ k : Flag, slotFits (tagOf d.tags k) (slotOf p k) = false) →
      complete d p r s = .next { s with fault := some .flagContractViolation })

/-! ### Memory -/

/-- The model's memory form: two canonical stores that read the same in every cell are equal data. -/
def Obligations.CanonicalStoresThatReadAlikeAreEqual : Prop :=
  ∀ m m' : Memory, m.wf = true → m'.wf = true → (∀ k : Nat, m.read k = m'.read k) → m = m'

/-- R41, R43, R46 to R48, R50: every bus read and write, range by range, with its effect on the display
port and the diagnostic stream. -/
def Obligations.BusFollowsTheRoutingTable : Prop :=
  ∀ (s : State) (a : Word) (v : Byte),
    (a.toNat ≤ 0xDFFF → s.memRead a = (s.mem.read a.toNat, s) ∧
      s.memWrite a v = { s with mem := s.mem.write a.toNat v }) ∧
    (0xE000 ≤ a.toNat ∧ a.toNat ≤ 0xFDFF → s.memRead a = (s.mem.read (a.toNat - 0x2000), s) ∧
      s.memWrite a v = { s with mem := s.mem.write (a.toNat - 0x2000) v }) ∧
    (0xFE00 ≤ a.toNat ∧ a.toNat ≤ 0xFEFF → s.memRead a = (s.mem.read a.toNat, s) ∧
      s.memWrite a v = { s with mem := s.mem.write a.toNat v }) ∧
    (0xFF00 ≤ a.toNat ∧ a.toNat ≤ 0xFF4B ∧ a ≠ 0xFF44 →
      s.memRead a = (s.ioRead a, { s with port := s.port ++ [.read a (s.ioRead a)] })) ∧
    (a = 0xFF44 → s.memRead a = (s.params.lySentinel, s)) ∧
    (0xFF00 ≤ a.toNat ∧ a.toNat ≤ 0xFF4B →
      s.memWrite a v = { s with port := s.port ++ [.write a v], mem := s.mem.write a.toNat v }) ∧
    (0xFF4C ≤ a.toNat ∧ a.toNat ≤ 0xFF7F →
      s.memRead a = (s.mem.read a.toNat, { s with susp := s.susp ++ [⟨a, .read, s.mem.read a.toNat⟩] }) ∧
      s.memWrite a v = { s with susp := s.susp ++ [⟨a, .write, v⟩], mem := s.mem.write a.toNat v }) ∧
    (0xFF80 ≤ a.toNat → s.memRead a = (s.mem.read a.toNat, s) ∧
      s.memWrite a v = { s with mem := s.mem.write a.toNat v })

/-- R42: the echo range and its primary alias are one cell, in both directions, and no access resolves to
a cell of 0xE000 to 0xFDFF. -/
def Obligations.EchoRangeIsAnAlias : Prop :=
  (∀ (s : State) (a : Word) (v : Byte), s.mem.wf = true → 0xE000 ≤ a.toNat → a.toNat < 0xFE00 →
    (s.memRead a).1 = (s.memRead (a - 0x2000)).1 ∧
    ((s.memWrite a v).memRead (a - 0x2000)).1 = v ∧
    ((s.memWrite (a - 0x2000) v).memRead a).1 = v) ∧
  (∀ (s : State) (a : Word) (v : Byte) (k : Nat), 0xE000 ≤ k → k ≤ 0xFDFF →
    cellOf a ≠ k ∧ (s.memWrite a v).mem.read k = s.mem.read k)

/-- R45, R363: a read of the scanline register is the sentinel whatever was written, and is not shown on
the display port; the write is delegated and mirrored. -/
def Obligations.ScanlineReadsTheSentinelWhateverWasWritten : Prop :=
  ∀ (s : State) (v : Byte), s.mem.wf = true →
    s.memRead 0xFF44 = (s.params.lySentinel, s) ∧
    (s.memWrite 0xFF44 v).port = s.port ++ [.write 0xFF44 v] ∧
    (s.memWrite 0xFF44 v).mem.read 0xFF44 = v ∧
    (s.memWrite 0xFF44 v).memRead 0xFF44 = (s.params.lySentinel, s.memWrite 0xFF44 v)

/-- A write of the display range is shown on the port and mirrored (R44). The two clauses about a read after
it are not R44's: that the reference device answers the mirrored byte, and that any other device answers the
free value Config.ioAnswer of the port history, rest on R43 and on the model's choice (log entry 5). -/
def Obligations.DisplayWritesAreDelegatedAndMirrored : Prop :=
  ∀ (s : State) (a : Word) (v : Byte), s.mem.wf = true → 0xFF00 ≤ a.toNat → a.toNat ≤ 0xFF4B →
    s.memWrite a v = { s with port := s.port ++ [.write a v], mem := s.mem.write a.toNat v } ∧
    (s.memWrite a v).mem.read a.toNat = v ∧
    (a ≠ 0xFF44 → s.params.io = .latch → ((s.memWrite a v).memRead a).1 = v) ∧
    (a ≠ 0xFF44 → s.params.io = .free →
      ((s.memWrite a v).memRead a).1 = Config.ioAnswer (s.port ++ [.write a v]) a)

/-- R46, R338: an access of 0xFF4C to 0xFF7F is an ordinary access plus one event at the end of the
stream; it raises nothing. -/
def Obligations.SuspiciousAccessIsOrdinaryPlusOneEvent : Prop :=
  ∀ (s : State) (a : Word) (v : Byte), s.mem.wf = true → 0xFF4C ≤ a.toNat → a.toNat ≤ 0xFF7F →
    s.memRead a =
      (s.mem.read a.toNat, { s with susp := s.susp ++ [⟨a, .read, s.mem.read a.toNat⟩] }) ∧
    s.memWrite a v = { s with mem := s.mem.write a.toNat v, susp := s.susp ++ [⟨a, .write, v⟩] } ∧
    ((s.memWrite a v).memRead a).1 = v

/-- R112, R113: the two stores of a push, high byte first to the higher address; the two reads of a pop, low
byte first; and a pop after a push gives the word back and restores SP, where both bytes lie in ranges that
hold what is written. -/
def Obligations.PopReturnsTheWordPushed : Prop :=
  (∀ (s : State) (w : Word),
    s.push16 w =
      { (s.memWrite (s.sp - 1) (w.extractLsb' 8 8)).memWrite (s.sp - 2) (w.extractLsb' 0 8) with
        sp := s.sp - 2 }) ∧
  (∀ (s s1 s2 : State) (lo hi : Byte),
    s.memRead s.sp = (lo, s1) → s1.memRead (s.sp + 1) = (hi, s2) →
    s.pop16 = (hi ++ lo, { s2 with sp := s.sp + 2 })) ∧
  (∀ (s : State) (w : Word), s.mem.wf = true → storesPlainly (s.sp - 1) → storesPlainly (s.sp - 2) →
    (s.push16 w).pop16.1 = w ∧ (s.push16 w).pop16.2.sp = s.sp)

/-! ### Encoding -/

/-- R70 to R82: decoding the bytes of a well-formed instruction gives it back, with every operand at every
value, and leaves what follows. -/
def Obligations.DecodeOfEncodeIsTheInstruction : Prop :=
  ∀ (i : Instr) (rest : List Byte), i.wf = true → decode (encode i ++ rest) = .ok (i, rest)

/-- R86: the other direction: what is decoded is well formed, and its encoding is the bytes consumed. -/
def Obligations.EncodeOfDecodeIsTheBytes : Prop :=
  ∀ (bs rest : List Byte) (i : Instr), decode bs = .ok (i, rest) → i.wf = true ∧ encode i ++ rest = bs

/-- R70, R80: the descriptor's length is the number of bytes, which the first byte alone tells. -/
def Obligations.LengthIsToldByTheFirstByte : Prop :=
  ∀ i : Instr, i.wf = true →
    (rom i).length = (encode i).length ∧ 1 ≤ (rom i).length ∧ (rom i).length ≤ 3 ∧
    ∀ (op : Byte) (bs : List Byte), encode i = op :: bs → fetchLength op = (rom i).length

/-- Words written out from R81 and R82, one or two of each family (a sanity statement). -/
def Obligations.WordsOfEachFamilyDecode : Prop :=
  decode [0x00] = .ok (.nop, []) ∧ decode [0xF3] = .ok (.di, []) ∧
  decode [0xC3, 0x34, 0x12] = .ok (.jp 0x1234, []) ∧ decode [0x38, 0xF0] = .ok (.jrCc .c 0xF0, []) ∧
  decode [0x65] = .ok (.ldRR .h .l, []) ∧ decode [0x21, 0xFF, 0x9F] = .ok (.ldRrN .hl 0x9FFF, []) ∧
  decode [0xE0, 0x47] = .ok (.ldhA8A 0x47, []) ∧ decode [0xBE] = .ok (.cp .hlInd, []) ∧
  decode [0x3D] = .ok (.dec8 (.reg .a), []) ∧ decode [0xCB, 0x7C] = .ok (.bit 7 (.reg .h), []) ∧
  decode [0x1F] = .ok (.rra, []) ∧ decode [0xEF] = .ok (.rst 5, []) ∧
  decode [0xF5] = .ok (.push .af, []) ∧ decode [0x76] = .ok (.halt, []) ∧
  decode [0xCB, 0xCB] = .ok (.set 1 (.reg .e), []) ∧ decode [0xD3] = .ok (.noEntry 0xD3, [])

/-! ### The step -/

/-- R100, R101, R103: when the bytes FETCH and DECODE read at PC are those of a well-formed instruction, a
step is that instruction's exec on the state after the reads, after the display subsystem's turn (which
is the state itself when nothing is queued). -/
def Obligations.StepRunsTheDecodedInstruction : Prop :=
  (∀ (s : State) (i : Instr), s.fault = none → i.wf = true →
    (fetchInstr (displayTurn s)).1 = encode i →
    step s = exec i (fetchInstr (displayTurn s)).2) ∧
  (∀ s : State, s.display = [] → displayTurn s = s)

/-- R60, R101, R103: the bytes of a well-formed instruction standing in the cells from PC on, in ranges
that are read without a side effect, are what the step runs, on the very state. -/
def Obligations.StepRunsTheInstructionStoredAtPc : Prop :=
  ∀ (s : State) (i : Instr), s.fault = none → s.display = [] → i.wf = true →
    (∀ k : Nat, k < (encode i).length →
      readsQuietly (s.pc + BitVec.ofNat 16 k) ∧
      s.mem.read (cellOf (s.pc + BitVec.ofNat 16 k)) = (encode i).getD k 0) →
    step s = exec i s

/-- R51, R57, R103: FETCH and DECODE read as many bytes as the first one asks for, in ascending order of
addresses, and change nothing but the two output streams. -/
def Obligations.FetchReadsAscendingAndChangesNoState : Prop :=
  ∀ s : State,
    (fetchInstr s).1.length = fetchLength (s.busByte s.pc) ∧
    (fetchInstr s).1.head? = some (s.busByte s.pc) ∧
    (fetchLength (s.busByte s.pc) ≥ 2 →
      (fetchInstr s).1[1]? = some ((s.afterRead s.pc).busByte (s.pc + 1))) ∧
    (fetchLength (s.busByte s.pc) = 3 →
      (fetchInstr s).1[2]? = some (((s.afterRead s.pc).afterRead (s.pc + 1)).busByte (s.pc + 2))) ∧
    (fetchInstr s).2 = { s with susp := (fetchInstr s).2.susp, port := (fetchInstr s).2.port }

/-- R117: a block whose latch is set takes no step, so a run of it ends in the stop and is no success; only
reset leaves that state. -/
def Obligations.FaultedBlockTakesNoStep : Prop :=
  ∀ (s : State) (f : FaultName), s.fault = some f →
    (∀ t : State, step s ≠ .next t) ∧
    (∀ n : Nat, Sys2Proof.core.run (n + 1) s = .fault (.stopped f) ∧ ¬ SafeRun n s) ∧
    (∀ x : Launch, (resetBlock x s).fault = none)

/-- R58: between two steps the display subsystem changes cells of 0xFF00 to 0xFF4B alone (the model holds
its coming writes in a queue: log entry 6). -/
def Obligations.DisplaySubsystemChangesOnlyItsCells : Prop :=
  ∀ s : State,
    displayTurn s = { s with mem := (displayTurn s).mem, display := s.display.tail } ∧
    ∀ k : Nat, ¬ (0xFF00 ≤ k ∧ k ≤ 0xFF4B) → (displayTurn s).mem.read k = s.mem.read k

/-! ### Rules over every instruction -/

/-- R85, R320 to R324, R329: every instruction answers a next state; from a clear latch the latch
afterwards is the fault its table entry ends in, or clear; no instruction clears a set latch; and a block
whose latch is clear always takes a step. -/
def Obligations.EveryInstructionEndsInItsTableFaultOrNone : Prop :=
  (∀ (i : Instr) (s : State), ∃ t, exec i s = .next t ∧
    (s.fault = none → t.fault = faultOf i) ∧ (s.fault ≠ none → t.fault ≠ none)) ∧
  (∀ s : State, s.fault = none → ∃ t, step s = .next t)

/-- R115: every instruction of the table but POP AF keeps its flag contract: a flag declared unaffected
keeps its value, a flag declared forced has that value; an entry that faults changes no flag. -/
def Obligations.EveryInstructionKeepsItsFlagContract : Prop :=
  ∀ (i : Instr) (s t : State), i.wf = true → i ≠ .pop .af → exec i s = .next t →
    ∀ k : Flag,
      (faultOf i ≠ none → t.flag k = s.flag k) ∧
      (faultOf i = none →
        (tagOf (rom i).tags k = .unaffected → t.flag k = s.flag k) ∧
        (tagOf (rom i).tags k = .forced0 → t.flag k = false) ∧
        (tagOf (rom i).tags k = .forced1 → t.flag k = true))

/-- R29, R110, R328: PC moves by the length exactly when the entry neither faults nor is a redirecting
handler's, and stays when the entry faults. -/
def Obligations.PcAdvancesByTheLengthUnlessRedirectedOrFaulted : Prop :=
  ∀ (i : Instr) (s t : State), i.wf = true → exec i s = .next t →
    (faultOf i = none → mayRedirect i = false → t.pc = s.pc + BitVec.ofNat 16 (rom i).length) ∧
    (faultOf i ≠ none → t.pc = s.pc)

/-- Frame of memory over every instruction: every cell but those the instruction's stores resolve to reads
as before. `storesOf` computes the addresses from the state exec is given. -/
def Obligations.EveryInstructionStoresOnlyWhereItsRuleSays : Prop :=
  ∀ (i : Instr) (s t : State), exec i s = .next t →
    (storesOf s i = [] → t.mem = s.mem) ∧
    ∀ k : Nat, k ∉ (storesOf s i).map cellOf → t.mem.read k = s.mem.read k

/-- Frame of the registers over every instruction (R20, R21), of SP, of the fixed parameters (R28) and of
the display queue; and both output streams only grow, at their end (R27, R57). -/
def Obligations.EveryInstructionWritesOnlyItsRegisters : Prop :=
  ∀ (i : Instr) (s t : State), exec i s = .next t →
    (∀ r : Reg8, r ∉ regsOf i → t.get8 r = s.get8 r) ∧
    (writesSp i = false → t.sp = s.sp) ∧
    t.params = s.params ∧ t.display = s.display ∧ s.susp <+: t.susp ∧ s.port <+: t.port

/-! ### NOP, DI, jumps -/

/-- R130, R131, R135. -/
def Obligations.NopDiAdvanceAndJpRedirects : Prop :=
  Entry .nop [0x00] '-' '-' '-' '-' ∧ Entry .di [0xF3] '-' '-' '-' '-' ∧
  (∀ s : State, exec .nop s = .next { s with pc := s.pc + 1 }) ∧
  (∀ s : State, exec .di s = .next { s with pc := s.pc + 1 }) ∧
  (∀ a16 : Word, Entry (.jp a16) [0xC3, a16.extractLsb' 0 8, a16.extractLsb' 8 8] '-' '-' '-' '-') ∧
  (∀ (a16 : Word) (s : State), exec (.jp a16) s = .next { s with pc := a16 })

/-- R136, R137: the target is pc plus the signed byte plus JR_BASE_ADJUST, modulo 65536, for both values of
the parameter; an untaken JR cc advances by 2. -/
def Obligations.JrAddsTheSignedByteToTheAddressOfTheJr : Prop :=
  ∀ (e8 : Byte) (s : State),
    Entry (.jr e8) [0x18, e8] '-' '-' '-' '-' ∧
    Entry (.jrCc .nz e8) [0x20, e8] '-' '-' '-' '-' ∧ Entry (.jrCc .z e8) [0x28, e8] '-' '-' '-' '-' ∧
    Entry (.jrCc .nc e8) [0x30, e8] '-' '-' '-' '-' ∧ Entry (.jrCc .c e8) [0x38, e8] '-' '-' '-' '-' ∧
    ∀ target : Word,
      target = BitVec.ofInt 16 (s.pc.toNat + e8.toInt + (if s.params.jrBase = .literal then 0 else 2)) →
      exec (.jr e8) s = .next { s with pc := target } ∧
      exec (.jrCc .nz e8) s = .next { s with pc := if s.f.getLsbD 7 = false then target else s.pc + 2 } ∧
      exec (.jrCc .z e8) s = .next { s with pc := if s.f.getLsbD 7 = true then target else s.pc + 2 } ∧
      exec (.jrCc .nc e8) s = .next { s with pc := if s.f.getLsbD 4 = false then target else s.pc + 2 } ∧
      exec (.jrCc .c e8) s = .next { s with pc := if s.f.getLsbD 4 = true then target else s.pc + 2 }

/-- R138, R139, R169 to R172, each the spec's decision (D15 to D19): the nine entries whose operand shape has
no case latch MalformedOperand and write nothing else, whatever the flags. -/
def Obligations.ShapesWithNoCaseLatchMalformedOperand : Prop :=
  ∀ (cc : Cond) (a16 : Word) (e8 lo hi : Byte) (s : State),
    Entry (.jpCc cc (hi ++ lo)) [0xC2 + 8 * condCode cc, lo, hi] '-' '-' '-' '-' ∧
    Entry .jpHl [0xE9] '-' '-' '-' '-' ∧ Entry (.ldA16Sp (hi ++ lo)) [0x08, lo, hi] '-' '-' '-' '-' ∧
    Entry (.ldHlSpE e8) [0xF8, e8] '0' '0' 'H' 'C' ∧ Entry .ldCA [0xE2] '-' '-' '-' '-' ∧
    Entry .ldAC [0xF2] '-' '-' '-' '-' ∧
    exec (.jpCc cc a16) s = .next { s with fault := some .malformedOperand } ∧
    exec .jpHl s = .next { s with fault := some .malformedOperand } ∧
    exec (.ldA16Sp a16) s = .next { s with fault := some .malformedOperand } ∧
    exec (.ldHlSpE e8) s = .next { s with fault := some .malformedOperand } ∧
    exec .ldCA s = .next { s with fault := some .malformedOperand } ∧
    exec .ldAC s = .next { s with fault := some .malformedOperand }

/-! ### LD and LDH -/

/-- R150, R151, R163. -/
def Obligations.LdCopiesRegistersAndImmediates : Prop :=
  (∀ (dst r : GReg) (s : State),
    Entry (.ldRR dst r) [0x40 + 8 * gregCode dst + gregCode r] '-' '-' '-' '-' ∧
    exec (.ldRR dst r) s = .next { s.set8 (gregReg dst) (s.get8 (gregReg r)) with pc := s.pc + 1 }) ∧
  (∀ (dst : GReg) (n8 : Byte) (s : State),
    Entry (.ldRN dst n8) [0x06 + 8 * gregCode dst, n8] '-' '-' '-' '-' ∧
    exec (.ldRN dst n8) s = .next { s.set8 (gregReg dst) n8 with pc := s.pc + 2 }) ∧
  (∀ (s : State) (lo hi : Byte),
    Entry (.ldRrN .bc (hi ++ lo)) [0x01, lo, hi] '-' '-' '-' '-' ∧
    Entry (.ldRrN .de (hi ++ lo)) [0x11, lo, hi] '-' '-' '-' '-' ∧
    Entry (.ldRrN .hl (hi ++ lo)) [0x21, lo, hi] '-' '-' '-' '-' ∧
    Entry (.ldRrN .sp (hi ++ lo)) [0x31, lo, hi] '-' '-' '-' '-' ∧
    exec (.ldRrN .bc (hi ++ lo)) s = .next { s with b := hi, c := lo, pc := s.pc + 3 } ∧
    exec (.ldRrN .de (hi ++ lo)) s = .next { s with d := hi, e := lo, pc := s.pc + 3 } ∧
    exec (.ldRrN .hl (hi ++ lo)) s = .next { s with h := hi, l := lo, pc := s.pc + 3 } ∧
    exec (.ldRrN .sp (hi ++ lo)) s = .next { s with sp := hi ++ lo, pc := s.pc + 3 })

/-- R164, which is the spec's own reading of D0. -/
def Obligations.LdSpHlCopiesHl : Prop :=
  Entry .ldSpHl [0xF9] '-' '-' '-' '-' ∧
  ∀ s : State, exec .ldSpHl s = .next { s with sp := s.h ++ s.l, pc := s.pc + 1 }

/-- R152, R155, R156, R166, R168: the byte the bus gives at the operand's address, which is formed before
the write; what the read shows on the streams is the bus's (BusFollowsTheRoutingTable). -/
def Obligations.LdLoadsTheByteAtTheAddress : Prop :=
  (∀ (dst : GReg) (s : State), Entry (.ldRHl dst) [0x46 + 8 * gregCode dst] '-' '-' '-' '-' ∧
    exec (.ldRHl dst) s =
      .next { (s.afterRead (s.h ++ s.l)).set8 (gregReg dst) (s.busByte (s.h ++ s.l)) with pc := s.pc + 1 }) ∧
  (∀ s : State, Entry .ldABc [0x0A] '-' '-' '-' '-' ∧
    exec .ldABc s = .next { s.afterRead (s.b ++ s.c) with a := s.busByte (s.b ++ s.c), pc := s.pc + 1 }) ∧
  (∀ s : State, Entry .ldADe [0x1A] '-' '-' '-' '-' ∧
    exec .ldADe s = .next { s.afterRead (s.d ++ s.e) with a := s.busByte (s.d ++ s.e), pc := s.pc + 1 }) ∧
  (∀ (lo hi : Byte) (s : State), Entry (.ldAA16 (hi ++ lo)) [0xFA, lo, hi] '-' '-' '-' '-' ∧
    exec (.ldAA16 (hi ++ lo)) s =
      .next { s.afterRead (hi ++ lo) with a := s.busByte (hi ++ lo), pc := s.pc + 3 }) ∧
  (∀ (a8 : Byte) (s : State), Entry (.ldhAA8 a8) [0xF0, a8] '-' '-' '-' '-' ∧
    exec (.ldhAA8 a8) s =
      .next { s.afterRead (0xFF#8 ++ a8) with a := s.busByte (0xFF#8 ++ a8), pc := s.pc + 2 })

/-- R153, R154, R157, R158, R165, R167: one bus write at the operand's address. -/
def Obligations.LdStoresTheByteAtTheAddress : Prop :=
  (∀ (r : GReg) (s : State), Entry (.ldHlR r) [0x70 + gregCode r] '-' '-' '-' '-' ∧
    exec (.ldHlR r) s = .next { s.memWrite (s.h ++ s.l) (s.get8 (gregReg r)) with pc := s.pc + 1 }) ∧
  (∀ (n8 : Byte) (s : State), Entry (.ldHlN n8) [0x36, n8] '-' '-' '-' '-' ∧
    exec (.ldHlN n8) s = .next { s.memWrite (s.h ++ s.l) n8 with pc := s.pc + 2 }) ∧
  (∀ s : State, Entry .ldBcA [0x02] '-' '-' '-' '-' ∧
    exec .ldBcA s = .next { s.memWrite (s.b ++ s.c) s.a with pc := s.pc + 1 }) ∧
  (∀ s : State, Entry .ldDeA [0x12] '-' '-' '-' '-' ∧
    exec .ldDeA s = .next { s.memWrite (s.d ++ s.e) s.a with pc := s.pc + 1 }) ∧
  (∀ (lo hi : Byte) (s : State), Entry (.ldA16A (hi ++ lo)) [0xEA, lo, hi] '-' '-' '-' '-' ∧
    exec (.ldA16A (hi ++ lo)) s = .next { s.memWrite (hi ++ lo) s.a with pc := s.pc + 3 }) ∧
  (∀ (a8 : Byte) (s : State), Entry (.ldhA8A a8) [0xE0, a8] '-' '-' '-' '-' ∧
    exec (.ldhA8A a8) s = .next { s.memWrite (0xFF#8 ++ a8) s.a with pc := s.pc + 2 })

/-- R159 to R162: the transfer at HL, then HL by one, modulo 65536, and no flag. -/
def Obligations.AutoAdjustMovesHlAfterTheTransfer : Prop :=
  Entry .ldAHli [0x2A] '-' '-' '-' '-' ∧ Entry .ldAHld [0x3A] '-' '-' '-' '-' ∧
  Entry .ldHliA [0x22] '-' '-' '-' '-' ∧ Entry .ldHldA [0x32] '-' '-' '-' '-' ∧
  ∀ (s : State) (hl : Word), hl = s.h ++ s.l →
    exec .ldAHli s = .next { s.afterRead hl with
      a := s.busByte hl, h := (succ16 hl).extractLsb' 8 8, l := (succ16 hl).extractLsb' 0 8, pc := s.pc + 1 } ∧
    exec .ldAHld s = .next { s.afterRead hl with
      a := s.busByte hl, h := (pred16 hl).extractLsb' 8 8, l := (pred16 hl).extractLsb' 0 8, pc := s.pc + 1 } ∧
    exec .ldHliA s = .next { s.memWrite hl s.a with
      h := (succ16 hl).extractLsb' 8 8, l := (succ16 hl).extractLsb' 0 8, pc := s.pc + 1 } ∧
    exec .ldHldA s = .next { s.memWrite hl s.a with
      h := (pred16 hl).extractLsb' 8 8, l := (pred16 hl).extractLsb' 0 8, pc := s.pc + 1 }

/-! ### The ALU -/

/-- R105: what a 3-bit register operand reads, what the read changes, and where the operand is written. -/
def Obligations.OperandIsARegisterOrTheByteAtHl : Prop :=
  ∀ (s : State) (v : Byte),
    (∀ r : GReg, s.read8 (.reg r) = (s.get8 (gregReg r), s) ∧ s.write8 (.reg r) v = s.set8 (gregReg r) v) ∧
    s.read8 .hlInd = s.memRead (s.h ++ s.l) ∧ s.write8 .hlInd v = s.memWrite (s.h ++ s.l) v

/-- R193 to R195: F alone is written; the borrow and the nibble borrow are comparisons of numbers. -/
def Obligations.CpSetsTheFlagsOfTheDifference : Prop :=
  (∀ (x : Opnd8) (s : State) (v : Byte), v = s.opndByte x →
    Entry (.cp x) [0xB8 + opnd8Code x] 'Z' '1' 'H' 'C' ∧
    exec (.cp x) s = .next { s.afterOpnd x with
      f := flagByte (decide (s.a = v)) true (decide (s.a.toNat % 16 < v.toNat % 16))
        (decide (s.a.toNat < v.toNat)),
      pc := s.pc + 1 }) ∧
  (∀ (n8 : Byte) (s : State),
    Entry (.cpN n8) [0xFE, n8] 'Z' '1' 'H' 'C' ∧
    exec (.cpN n8) s = .next { s with
      f := flagByte (decide (s.a = n8)) true (decide (s.a.toNat % 16 < n8.toNat % 16))
        (decide (s.a.toNat < n8.toNat)),
      pc := s.pc + 2 })

/-- R196 to R198. -/
def Obligations.SubWritesTheDifferenceAndItsFlags : Prop :=
  (∀ (x : Opnd8) (s : State) (v : Byte), v = s.opndByte x →
    Entry (.sub x) [0x90 + opnd8Code x] 'Z' '1' 'H' 'C' ∧
    exec (.sub x) s = .next { s.afterOpnd x with
      a := BitVec.ofNat 8 ((s.a.toNat + 256 - v.toNat) % 256),
      f := flagByte (decide (s.a = v)) true (decide (s.a.toNat % 16 < v.toNat % 16))
        (decide (s.a.toNat < v.toNat)),
      pc := s.pc + 1 }) ∧
  (∀ (n8 : Byte) (s : State),
    Entry (.subN n8) [0xD6, n8] 'Z' '1' 'H' 'C' ∧
    exec (.subN n8) s = .next { s with
      a := BitVec.ofNat 8 ((s.a.toNat + 256 - n8.toNat) % 256),
      f := flagByte (decide (s.a = n8)) true (decide (s.a.toNat % 16 < n8.toNat % 16))
        (decide (s.a.toNat < n8.toNat)),
      pc := s.pc + 2 })

/-- R199 to R201; the half-carry formula is the spec's decision (R191, D27). -/
def Obligations.AddWritesTheSumAndItsFlags : Prop :=
  (∀ (x : Opnd8) (s : State) (v : Byte), v = s.opndByte x →
    Entry (.add x) [0x80 + opnd8Code x] 'Z' '0' 'H' 'C' ∧
    exec (.add x) s = .next { s.afterOpnd x with
      a := s.a + v,
      f := flagByte (decide ((s.a.toNat + v.toNat) % 256 = 0)) false
        (decide (s.a.toNat % 16 + v.toNat % 16 > 15)) (decide (s.a.toNat + v.toNat > 255)),
      pc := s.pc + 1 }) ∧
  (∀ (n8 : Byte) (s : State),
    Entry (.addN n8) [0xC6, n8] 'Z' '0' 'H' 'C' ∧
    exec (.addN n8) s = .next { s with
      a := s.a + n8,
      f := flagByte (decide ((s.a.toNat + n8.toNat) % 256 = 0)) false
        (decide (s.a.toNat % 16 + n8.toNat % 16 > 15)) (decide (s.a.toNat + n8.toNat > 255)),
      pc := s.pc + 2 })

/-- R202 to R210: the bitwise result in A; C and N are 0, H is 1 for AND and 0 for OR and XOR. -/
def Obligations.LogicWritesTheBitwiseResultAndItsFlags : Prop :=
  (∀ (x : Opnd8) (s : State) (v : Byte), v = s.opndByte x →
    Entry (.and x) [0xA0 + opnd8Code x] 'Z' '0' '1' '0' ∧
    Entry (.or x) [0xB0 + opnd8Code x] 'Z' '0' '0' '0' ∧
    Entry (.xor x) [0xA8 + opnd8Code x] 'Z' '0' '0' '0' ∧
    exec (.and x) s = .next { s.afterOpnd x with
      a := s.a &&& v, f := flagByte (decide (s.a &&& v = 0)) false true false, pc := s.pc + 1 } ∧
    exec (.or x) s = .next { s.afterOpnd x with
      a := s.a ||| v, f := flagByte (decide (s.a ||| v = 0)) false false false, pc := s.pc + 1 } ∧
    exec (.xor x) s = .next { s.afterOpnd x with
      a := s.a ^^^ v, f := flagByte (decide (s.a = v)) false false false, pc := s.pc + 1 }) ∧
  (∀ (n8 : Byte) (s : State),
    Entry (.andN n8) [0xE6, n8] 'Z' '0' '1' '0' ∧ Entry (.orN n8) [0xF6, n8] 'Z' '0' '0' '0' ∧
    Entry (.xorN n8) [0xEE, n8] 'Z' '0' '0' '0' ∧
    exec (.andN n8) s = .next { s with
      a := s.a &&& n8, f := flagByte (decide (s.a &&& n8 = 0)) false true false, pc := s.pc + 2 } ∧
    exec (.orN n8) s = .next { s with
      a := s.a ||| n8, f := flagByte (decide (s.a ||| n8 = 0)) false false false, pc := s.pc + 2 } ∧
    exec (.xorN n8) s = .next { s with
      a := s.a ^^^ n8, f := flagByte (decide (s.a = n8)) false false false, pc := s.pc + 2 })

/-- R211 to R214: the operand by one modulo 256, Z, N and H, and the old C kept. -/
def Obligations.IncDecByteKeepTheCarry : Prop :=
  ∀ (x : Opnd8) (s : State) (v : Byte), v = s.opndByte x →
    Entry (.inc8 x) [0x04 + 8 * opnd8Code x] 'Z' '0' 'H' '-' ∧
    Entry (.dec8 x) [0x05 + 8 * opnd8Code x] 'Z' '1' 'H' '-' ∧
    exec (.inc8 x) s = .next { (s.afterOpnd x).write8 x (BitVec.ofNat 8 ((v.toNat + 1) % 256)) with
      f := flagByte (decide (v.toNat = 255)) false (decide (v.toNat % 16 = 15)) (s.f.getLsbD 4),
      pc := s.pc + 1 } ∧
    exec (.dec8 x) s = .next { (s.afterOpnd x).write8 x (BitVec.ofNat 8 ((v.toNat + 255) % 256)) with
      f := flagByte (decide (v.toNat = 1)) true (decide (v.toNat % 16 = 0)) (s.f.getLsbD 4),
      pc := s.pc + 1 }

/-- R215, R216 (that SP is among the pairs is the spec's decision D36): the pair by one modulo 65536, and no
flag. -/
def Obligations.IncDecPairTouchNoFlag : Prop :=
  Entry (.incRr .bc) [0x03] '-' '-' '-' '-' ∧ Entry (.incRr .de) [0x13] '-' '-' '-' '-' ∧
  Entry (.incRr .hl) [0x23] '-' '-' '-' '-' ∧ Entry (.incRr .sp) [0x33] '-' '-' '-' '-' ∧
  Entry (.decRr .bc) [0x0B] '-' '-' '-' '-' ∧ Entry (.decRr .de) [0x1B] '-' '-' '-' '-' ∧
  Entry (.decRr .hl) [0x2B] '-' '-' '-' '-' ∧ Entry (.decRr .sp) [0x3B] '-' '-' '-' '-' ∧
  ∀ (hi lo : Byte) (s : State),
    (s.b = hi → s.c = lo →
      exec (.incRr .bc) s = .next { s with
        b := (succ16 (hi ++ lo)).extractLsb' 8 8, c := (succ16 (hi ++ lo)).extractLsb' 0 8, pc := s.pc + 1 } ∧
      exec (.decRr .bc) s = .next { s with
        b := (pred16 (hi ++ lo)).extractLsb' 8 8, c := (pred16 (hi ++ lo)).extractLsb' 0 8, pc := s.pc + 1 }) ∧
    (s.d = hi → s.e = lo →
      exec (.incRr .de) s = .next { s with
        d := (succ16 (hi ++ lo)).extractLsb' 8 8, e := (succ16 (hi ++ lo)).extractLsb' 0 8, pc := s.pc + 1 } ∧
      exec (.decRr .de) s = .next { s with
        d := (pred16 (hi ++ lo)).extractLsb' 8 8, e := (pred16 (hi ++ lo)).extractLsb' 0 8, pc := s.pc + 1 }) ∧
    (s.h = hi → s.l = lo →
      exec (.incRr .hl) s = .next { s with
        h := (succ16 (hi ++ lo)).extractLsb' 8 8, l := (succ16 (hi ++ lo)).extractLsb' 0 8, pc := s.pc + 1 } ∧
      exec (.decRr .hl) s = .next { s with
        h := (pred16 (hi ++ lo)).extractLsb' 8 8, l := (pred16 (hi ++ lo)).extractLsb' 0 8, pc := s.pc + 1 }) ∧
    exec (.incRr .sp) s = .next { s with sp := succ16 s.sp, pc := s.pc + 1 } ∧
    exec (.decRr .sp) s = .next { s with sp := pred16 s.sp, pc := s.pc + 1 }

/-! ### BIT, rotates, shift -/

/-- R230, R231: Z is the inverse of the tested bit, N is 0, H is 1, C and everything else but PC stay. -/
def Obligations.BitTestsWithoutWriting : Prop :=
  ∀ (b : BitVec 3) (x : Opnd8) (s : State) (v : Byte), v = s.opndByte x →
    Entry (.bit b x) [0xCB, 0x40 + 8 * b.setWidth 8 + opnd8Code x] 'Z' '0' '1' '-' ∧
    exec (.bit b x) s = .next { s.afterOpnd x with
      f := flagByte (decide (v.toNat / 2 ^ b.toNat % 2 = 0)) false true (s.f.getLsbD 4), pc := s.pc + 2 }

/-- R232, R233, R235, R236: RL and RR rotate the nine bits of the carry and the operand, Z is computed from
the result, and the carry is the one from before the step. -/
def Obligations.RlRrRotateThroughTheCarry : Prop :=
  ∀ (x : Opnd8) (s : State) (v : Byte) (left right : BitVec 9), v = s.opndByte x →
    left = (BitVec.ofBool (s.f.getLsbD 4) ++ v).rotateLeft 1 →
    right = (BitVec.ofBool (s.f.getLsbD 4) ++ v).rotateRight 1 →
    Entry (.rl x) [0xCB, 0x10 + opnd8Code x] 'Z' '0' '0' 'C' ∧
    Entry (.rr x) [0xCB, 0x18 + opnd8Code x] 'Z' '0' '0' 'C' ∧
    exec (.rl x) s = .next { (s.afterOpnd x).write8 x (left.extractLsb' 0 8) with
      f := flagByte (decide (left.extractLsb' 0 8 = 0#8)) false false (left.getLsbD 8), pc := s.pc + 2 } ∧
    exec (.rr x) s = .next { (s.afterOpnd x).write8 x (right.extractLsb' 0 8) with
      f := flagByte (decide (right.extractLsb' 0 8 = 0#8)) false false (right.getLsbD 8), pc := s.pc + 2 }

/-- R234, R237: the same rotation of A, with Z forced to 0 whatever the result. -/
def Obligations.RlaRraForceZeroFlagClear : Prop :=
  Entry .rla [0x17] '0' '0' '0' 'C' ∧ Entry .rra [0x1F] '0' '0' '0' 'C' ∧
  ∀ (s : State) (left right : BitVec 9),
    left = (BitVec.ofBool (s.f.getLsbD 4) ++ s.a).rotateLeft 1 →
    right = (BitVec.ofBool (s.f.getLsbD 4) ++ s.a).rotateRight 1 →
    exec .rla s = .next { s with
      a := left.extractLsb' 0 8, f := flagByte false false false (left.getLsbD 8), pc := s.pc + 1 } ∧
    exec .rra s = .next { s with
      a := right.extractLsb' 0 8, f := flagByte false false false (right.getLsbD 8), pc := s.pc + 1 }

/-- R238, R239: a logical shift; the old carry is not used. -/
def Obligations.SrlShiftsInZero : Prop :=
  ∀ (x : Opnd8) (s : State) (v : Byte), v = s.opndByte x →
    Entry (.srl x) [0xCB, 0x38 + opnd8Code x] 'Z' '0' '0' 'C' ∧
    exec (.srl x) s = .next { (s.afterOpnd x).write8 x (v >>> 1) with
      f := flagByte (decide (v.toNat < 2)) false false (decide (v.toNat % 2 = 1)), pc := s.pc + 2 }

/-- The corner case of R235: RR then RL of a register restores the register and C, and the other way
round. -/
def Obligations.RotatesUndoEachOther : Prop :=
  ∀ (r : GReg) (s t u : State),
    (exec (.rr (.reg r)) s = .next t → exec (.rl (.reg r)) t = .next u →
      u.get8 (gregReg r) = s.get8 (gregReg r) ∧ u.flag .c = s.flag .c) ∧
    (exec (.rl (.reg r)) s = .next t → exec (.rr (.reg r)) t = .next u →
      u.get8 (gregReg r) = s.get8 (gregReg r) ∧ u.flag .c = s.flag .c)

/-! ### Stack, calls, returns -/

/-- R250 (that the word is pc itself, and the vectors, are the spec's decisions D9 and D10): RST pushes its
own address and redirects to eight times the field. -/
def Obligations.RstPushesItsOwnAddress : Prop :=
  ∀ (t : BitVec 3) (s : State),
    Entry (.rst t) [0xC7 + 8 * t.setWidth 8] '-' '-' '-' '-' ∧
    exec (.rst t) s = .next { s.push16 s.pc with pc := BitVec.ofNat 16 (8 * t.toNat) }

/-- R251, R252: CALL pushes the address after it and redirects; an untaken CALL cc only advances by 3. Where
the two bytes go is said by PopReturnsTheWordPushed. -/
def Obligations.CallPushesTheAddressAfterIt : Prop :=
  ∀ (lo hi : Byte) (s : State),
    Entry (.call (hi ++ lo)) [0xCD, lo, hi] '-' '-' '-' '-' ∧
    Entry (.callCc .nz (hi ++ lo)) [0xC4, lo, hi] '-' '-' '-' '-' ∧
    Entry (.callCc .z (hi ++ lo)) [0xCC, lo, hi] '-' '-' '-' '-' ∧
    Entry (.callCc .nc (hi ++ lo)) [0xD4, lo, hi] '-' '-' '-' '-' ∧
    Entry (.callCc .c (hi ++ lo)) [0xDC, lo, hi] '-' '-' '-' '-' ∧
    exec (.call (hi ++ lo)) s = .next { s.push16 (s.pc + 3) with pc := hi ++ lo } ∧
    exec (.callCc .nz (hi ++ lo)) s = .next (if s.f.getLsbD 7 = false
      then { s.push16 (s.pc + 3) with pc := hi ++ lo } else { s with pc := s.pc + 3 }) ∧
    exec (.callCc .z (hi ++ lo)) s = .next (if s.f.getLsbD 7 = true
      then { s.push16 (s.pc + 3) with pc := hi ++ lo } else { s with pc := s.pc + 3 }) ∧
    exec (.callCc .nc (hi ++ lo)) s = .next (if s.f.getLsbD 4 = false
      then { s.push16 (s.pc + 3) with pc := hi ++ lo } else { s with pc := s.pc + 3 }) ∧
    exec (.callCc .c (hi ++ lo)) s = .next (if s.f.getLsbD 4 = true
      then { s.push16 (s.pc + 3) with pc := hi ++ lo } else { s with pc := s.pc + 3 })

/-- R253, R254, R256: PUSH of the four pairs, POP of BC, DE and HL, and RET. Where the two bytes lie is said
by PopReturnsTheWordPushed. -/
def Obligations.PushPopRetTransferTheWordOnTheStack : Prop :=
  (Entry (.push .bc) [0xC5] '-' '-' '-' '-' ∧ Entry (.push .de) [0xD5] '-' '-' '-' '-' ∧
    Entry (.push .hl) [0xE5] '-' '-' '-' '-' ∧ Entry (.push .af) [0xF5] '-' '-' '-' '-' ∧
    Entry (.pop .bc) [0xC1] '-' '-' '-' '-' ∧ Entry (.pop .de) [0xD1] '-' '-' '-' '-' ∧
    Entry (.pop .hl) [0xE1] '-' '-' '-' '-' ∧ Entry .ret [0xC9] '-' '-' '-' '-') ∧
  ∀ s : State,
    exec (.push .bc) s = .next { s.push16 (s.b ++ s.c) with pc := s.pc + 1 } ∧
    exec (.push .de) s = .next { s.push16 (s.d ++ s.e) with pc := s.pc + 1 } ∧
    exec (.push .hl) s = .next { s.push16 (s.h ++ s.l) with pc := s.pc + 1 } ∧
    exec (.push .af) s = .next { s.push16 (s.a ++ s.f) with pc := s.pc + 1 } ∧
    exec (.pop .bc) s = .next { s.pop16.2 with
      b := s.pop16.1.extractLsb' 8 8, c := s.pop16.1.extractLsb' 0 8, pc := s.pc + 1 } ∧
    exec (.pop .de) s = .next { s.pop16.2 with
      d := s.pop16.1.extractLsb' 8 8, e := s.pop16.1.extractLsb' 0 8, pc := s.pc + 1 } ∧
    exec (.pop .hl) s = .next { s.pop16.2 with
      h := s.pop16.1.extractLsb' 8 8, l := s.pop16.1.extractLsb' 0 8, pc := s.pc + 1 } ∧
    exec .ret s = .next { s.pop16.2 with pc := s.pop16.1 }

/-- R255 (the spec's decision D14): POP AF writes A, all eight bits of F, and SP, and then latches
FlagContractViolation with PC at the instruction. -/
def Obligations.PopAfWritesThenLatchesFlagContractViolation : Prop :=
  Entry (.pop .af) [0xF1] 'Z' 'N' 'H' 'C' ∧
  ∀ (s s1 s2 : State) (lo hi : Byte),
    s.memRead s.sp = (lo, s1) → s1.memRead (s.sp + 1) = (hi, s2) →
    exec (.pop .af) s = .next { s2 with
      a := hi, f := lo, sp := s.sp + 2, fault := some .flagContractViolation }

/-- R250, R256: with the stack where writes are held, a RET after a CALL at pc goes to pc + 3, and a RET
after an RST at pc goes to pc itself; SP is as before. -/
def Obligations.RetReturnsAfterTheCallAndToTheRst : Prop :=
  ∀ (s t : State), s.mem.wf = true → storesPlainly (s.sp - 1) → storesPlainly (s.sp - 2) →
    (∀ a16 : Word, exec (.call a16) s = .next t →
      ∃ u, exec .ret t = .next u ∧ u.pc = s.pc + 3 ∧ u.sp = s.sp) ∧
    (∀ v : BitVec 3, exec (.rst v) s = .next t →
      ∃ u, exec .ret t = .next u ∧ u.pc = s.pc ∧ u.sp = s.sp)

/-! ### Entries that end in a fault, and the escape byte -/

/-- R271 to R278, R284, R285: the entries without a handler that have no operand of their own (STOP's byte
is ignored) latch UnimplementedMnemonic and write nothing else. -/
def Obligations.UnhandledPlainEntriesLatchUnimplementedMnemonic : Prop :=
  (Entry .rlca [0x07] '0' '0' '0' 'C' ∧ Entry .rrca [0x0F] '0' '0' '0' 'C' ∧
    (∀ n8 : Byte, Entry (.stop n8) [0x10, n8] '-' '-' '-' '-') ∧ Entry .daa [0x27] 'Z' '-' '0' 'C' ∧
    Entry .cpl [0x2F] '-' '1' '1' '-' ∧ Entry .scf [0x37] '-' '0' '0' '1' ∧
    Entry .ccf [0x3F] '-' '0' '0' 'C' ∧ Entry .halt [0x76] '-' '-' '-' '-' ∧
    Entry .reti [0xD9] '-' '-' '-' '-' ∧ Entry .ei [0xFB] '-' '-' '-' '-') ∧
  ∀ (n8 : Byte) (s : State),
    exec .rlca s = .next { s with fault := some .unimplementedMnemonic } ∧
    exec .rrca s = .next { s with fault := some .unimplementedMnemonic } ∧
    exec (.stop n8) s = .next { s with fault := some .unimplementedMnemonic } ∧
    exec .daa s = .next { s with fault := some .unimplementedMnemonic } ∧
    exec .cpl s = .next { s with fault := some .unimplementedMnemonic } ∧
    exec .scf s = .next { s with fault := some .unimplementedMnemonic } ∧
    exec .ccf s = .next { s with fault := some .unimplementedMnemonic } ∧
    exec .halt s = .next { s with fault := some .unimplementedMnemonic } ∧
    exec .reti s = .next { s with fault := some .unimplementedMnemonic } ∧
    exec .ei s = .next { s with fault := some .unimplementedMnemonic }

/-- R279 to R283: ADC, SBC, the 16-bit ADDs and RET cc: no operand is read, no condition evaluated, nothing
popped, nothing written but the latch. -/
def Obligations.UnhandledArithmeticAndRetCcLatchUnimplementedMnemonic : Prop :=
  ∀ (x : Opnd8) (n8 e8 : Byte) (p : Rp) (cc : Cond) (s : State),
    (Entry (.adc x) [0x88 + opnd8Code x] 'Z' '0' 'H' 'C' ∧ Entry (.adcN n8) [0xCE, n8] 'Z' '0' 'H' 'C' ∧
      Entry (.sbc x) [0x98 + opnd8Code x] 'Z' '1' 'H' 'C' ∧ Entry (.sbcN n8) [0xDE, n8] 'Z' '1' 'H' 'C' ∧
      Entry (.addHlRr p) [0x09 + 16 * rpCode p] '-' '0' 'H' 'C' ∧
      Entry (.addSpE e8) [0xE8, e8] '0' '0' 'H' 'C' ∧
      Entry (.retCc cc) [0xC0 + 8 * condCode cc] '-' '-' '-' '-') ∧
    exec (.adc x) s = .next { s with fault := some .unimplementedMnemonic } ∧
    exec (.adcN n8) s = .next { s with fault := some .unimplementedMnemonic } ∧
    exec (.sbc x) s = .next { s with fault := some .unimplementedMnemonic } ∧
    exec (.sbcN n8) s = .next { s with fault := some .unimplementedMnemonic } ∧
    exec (.addHlRr p) s = .next { s with fault := some .unimplementedMnemonic } ∧
    exec (.addSpE e8) s = .next { s with fault := some .unimplementedMnemonic } ∧
    exec (.retCc cc) s = .next { s with fault := some .unimplementedMnemonic }

/-- R286 to R292: the prefixed entries without a handler; the [HL] forms do not read memory. -/
def Obligations.UnhandledPrefixedEntriesLatchUnimplementedMnemonic : Prop :=
  ∀ (b : BitVec 3) (x : Opnd8) (s : State),
    (Entry (.rlc x) [0xCB, opnd8Code x] 'Z' '0' '0' 'C' ∧
      Entry (.rrc x) [0xCB, 0x08 + opnd8Code x] 'Z' '0' '0' 'C' ∧
      Entry (.sla x) [0xCB, 0x20 + opnd8Code x] 'Z' '0' '0' 'C' ∧
      Entry (.sra x) [0xCB, 0x28 + opnd8Code x] 'Z' '0' '0' 'C' ∧
      Entry (.swap x) [0xCB, 0x30 + opnd8Code x] 'Z' '0' '0' '0' ∧
      Entry (.res b x) [0xCB, 0x80 + 8 * b.setWidth 8 + opnd8Code x] '-' '-' '-' '-' ∧
      Entry (.set b x) [0xCB, 0xC0 + 8 * b.setWidth 8 + opnd8Code x] '-' '-' '-' '-') ∧
    exec (.rlc x) s = .next { s with fault := some .unimplementedMnemonic } ∧
    exec (.rrc x) s = .next { s with fault := some .unimplementedMnemonic } ∧
    exec (.sla x) s = .next { s with fault := some .unimplementedMnemonic } ∧
    exec (.sra x) s = .next { s with fault := some .unimplementedMnemonic } ∧
    exec (.swap x) s = .next { s with fault := some .unimplementedMnemonic } ∧
    exec (.res b x) s = .next { s with fault := some .unimplementedMnemonic } ∧
    exec (.set b x) s = .next { s with fault := some .unimplementedMnemonic }

/-- R102, R293: a byte with no entry latches UnknownOpcode; in a step only that byte has been read, and
nothing but the latch (and what the one read shows on the streams) changes. -/
def Obligations.BytesWithNoEntryLatchUnknownOpcode : Prop :=
  (∀ (op : Byte) (s : State), exec (.noEntry op) s = .next { s with fault := some .unknownOpcode }) ∧
  (∀ s : State, s.fault = none → s.display = [] →
    s.busByte s.pc ∈ ([0xD3, 0xDB, 0xDD, 0xE3, 0xE4, 0xEB, 0xEC, 0xED, 0xF4, 0xFC, 0xFD] : List Byte) →
    step s = .next { s.afterRead s.pc with fault := some .unknownOpcode })

/-- R79, R294: the byte after the escape byte selects the entry of the prefixed table that runs, in the
decoder and in the row's own meaning (the model's choice, log entry 9); a second 0xCB is an ordinary second
byte. -/
def Obligations.EscapeByteSelectsThePrefixedTable : Prop :=
  (∀ b1 b2 : Byte, decodeOp 0xCB b1 b2 = cbInstr (decodeCb b1)) ∧
  (∀ (op : Byte) (s : State), exec (.escape op) s = exec (cbInstr (decodeCb op)) s ∧
    ∃ t, exec (.escape op) s = .next t) ∧
  (∀ (b1 b2 op : Byte), decodeOp 0xCB b1 b2 ≠ .escape op) ∧
  decodeOp 0xCB 0xCB 0 = .set 1 (.reg .e)
end

