-- ==== Sys2Proof/Laws/Memory.lean ====
section
/-!
SUPPORT. The laws of the primary store: every write keeps the canonical form, a read after a write gives
the value written, and a write leaves every other cell alone.
-/

namespace Sys2Proof.Machine

theorem Memory.wfFrom_cons {lo k : Nat} {v : Byte} {m : Memory} :
    Memory.wfFrom lo ((k, v) :: m) = true ↔
      lo ≤ k ∧ k < 65536 ∧ v ≠ Memory.unlisted ∧ Memory.wfFrom (k + 1) m = true := by
  simp [Memory.wfFrom, and_assoc]

theorem Memory.wfFrom_mono {lo lo' : Nat} (h : lo' ≤ lo) {m : Memory} (hm : Memory.wfFrom lo m = true) :
    Memory.wfFrom lo' m = true := by
  cases m with
  | nil => rfl
  | cons x m =>
    obtain ⟨k, v⟩ := x
    rw [Memory.wfFrom_cons] at hm ⊢
    exact ⟨by omega, hm.2⟩

/-- A cell below the first one listed reads as an unlisted cell. -/
theorem Memory.read_below {lo k : Nat} (h : k < lo) {m : Memory} (hm : Memory.wfFrom lo m = true) :
    Memory.read m k = Memory.unlisted := by
  induction m generalizing lo with
  | nil => rfl
  | cons x m ih =>
    obtain ⟨j, v⟩ := x
    rw [Memory.wfFrom_cons] at hm
    rw [Memory.read, if_neg (by omega)]
    exact ih (lo := j + 1) (by omega) hm.2.2.2

theorem Memory.write_wfFrom {lo k : Nat} (v : Byte) (hlo : lo ≤ k) (hk : k < 65536) {m : Memory}
    (hm : Memory.wfFrom lo m = true) : Memory.wfFrom lo (Memory.write m k v) = true := by
  induction m generalizing lo with
  | nil =>
    by_cases hv : v = Memory.unlisted
    · simp [Memory.write, hv, Memory.wfFrom]
    · simp [Memory.write, hv, hlo, hk, Memory.wfFrom]
  | cons x m ih =>
    obtain ⟨j, w⟩ := x
    have hj := Memory.wfFrom_cons.mp hm
    by_cases h1 : k < j
    · by_cases hv : v = Memory.unlisted
      · simpa [Memory.write, h1, hv] using hm
      · simp only [Memory.write, if_pos h1, if_neg hv]
        exact Memory.wfFrom_cons.mpr ⟨hlo, hk, hv, Memory.wfFrom_cons.mpr ⟨by omega, hj.2⟩⟩
    · by_cases h2 : k = j
      · subst h2
        by_cases hv : v = Memory.unlisted
        · simp only [Memory.write, if_neg h1, if_pos hv, if_true]
          exact Memory.wfFrom_mono (by omega) hj.2.2.2
        · simp only [Memory.write, if_neg h1, if_neg hv, if_true]
          exact Memory.wfFrom_cons.mpr ⟨hlo, hk, hv, hj.2.2.2⟩
      · simp only [Memory.write, if_neg h1, if_neg h2]
        exact Memory.wfFrom_cons.mpr ⟨hj.1, hj.2.1, hj.2.2.1, ih (by omega) hj.2.2.2⟩

/-- A write of any byte to any cell keeps the canonical form. -/
theorem Memory.write_wf {k : Nat} (v : Byte) (hk : k < 65536) {m : Memory} (hm : m.wf = true) :
    (m.write k v).wf = true :=
  Memory.write_wfFrom v (Nat.zero_le k) hk hm

/-- A write leaves every other cell alone, whatever the form of the list. -/
theorem Memory.read_write_other (m : Memory) {k j : Nat} (v : Byte) (h : j ≠ k) :
    (m.write k v).read j = m.read j := by
  induction m with
  | nil =>
    by_cases hv : v = Memory.unlisted <;> simp [Memory.write, Memory.read, hv, h]
  | cons x m ih =>
    obtain ⟨i, w⟩ := x
    by_cases h1 : k < i
    · by_cases hv : v = Memory.unlisted <;> simp [Memory.write, Memory.read, h1, hv, h]
    · by_cases h2 : k = i
      · subst h2
        by_cases hv : v = Memory.unlisted <;> simp [Memory.write, Memory.read, hv, h]
      · simp only [Memory.write, if_neg h1, if_neg h2, Memory.read, ih]

theorem Memory.read_write_from {lo k : Nat} (v : Byte) {m : Memory} (hm : Memory.wfFrom lo m = true) :
    (Memory.write m k v).read k = v := by
  induction m generalizing lo with
  | nil =>
    by_cases hv : v = Memory.unlisted <;> simp [Memory.write, Memory.read, hv]
  | cons x m ih =>
    obtain ⟨i, w⟩ := x
    have hi := Memory.wfFrom_cons.mp hm
    by_cases h1 : k < i
    · by_cases hv : v = Memory.unlisted
      · simp only [Memory.write, if_pos h1, if_pos hv, Memory.read, if_neg (Nat.ne_of_lt h1)]
        rw [hv]
        exact Memory.read_below (by omega) hi.2.2.2
      · simp [Memory.write, Memory.read, h1, hv]
    · by_cases h2 : k = i
      · subst h2
        by_cases hv : v = Memory.unlisted
        · simp only [Memory.write, if_neg h1, if_true, if_pos hv]
          rw [hv]
          exact Memory.read_below (Nat.lt_succ_self k) hi.2.2.2
        · simp [Memory.write, Memory.read, hv]
      · simp only [Memory.write, if_neg h1, if_neg h2, Memory.read]
        exact ih hi.2.2.2

/-- A read after a write to the same cell of a canonical store gives the byte written. -/
theorem Memory.read_write_same {m : Memory} (hm : m.wf = true) (k : Nat) (v : Byte) :
    (m.write k v).read k = v :=
  Memory.read_write_from v hm

end Sys2Proof.Machine
end

