-- ==== Sys2Proof/Laws/State.lean ====
section
/-!
SUPPORT. One lemma per field per update of State, so that no later proof unfolds a record update; and the
laws of the register accessors (R15, R16).
-/

-- Many small theorems in one file: elaborated one after another, so that they do not each hold a thread.
set_option Elab.async false

namespace Sys2Proof.Machine

@[simp] theorem State.set8_a_a (s : State) (v : Byte) : (s.set8 .a v).a = v := rfl
@[simp] theorem State.set8_a_b (s : State) (v : Byte) : (s.set8 .a v).b = s.b := rfl
@[simp] theorem State.set8_a_c (s : State) (v : Byte) : (s.set8 .a v).c = s.c := rfl
@[simp] theorem State.set8_a_d (s : State) (v : Byte) : (s.set8 .a v).d = s.d := rfl
@[simp] theorem State.set8_a_e (s : State) (v : Byte) : (s.set8 .a v).e = s.e := rfl
@[simp] theorem State.set8_a_f (s : State) (v : Byte) : (s.set8 .a v).f = s.f := rfl
@[simp] theorem State.set8_a_h (s : State) (v : Byte) : (s.set8 .a v).h = s.h := rfl
@[simp] theorem State.set8_a_l (s : State) (v : Byte) : (s.set8 .a v).l = s.l := rfl
@[simp] theorem State.set8_a_sp (s : State) (v : Byte) : (s.set8 .a v).sp = s.sp := rfl
@[simp] theorem State.set8_a_pc (s : State) (v : Byte) : (s.set8 .a v).pc = s.pc := rfl
@[simp] theorem State.set8_a_mem (s : State) (v : Byte) : (s.set8 .a v).mem = s.mem := rfl
@[simp] theorem State.set8_a_fault (s : State) (v : Byte) : (s.set8 .a v).fault = s.fault := rfl
@[simp] theorem State.set8_a_susp (s : State) (v : Byte) : (s.set8 .a v).susp = s.susp := rfl
@[simp] theorem State.set8_a_port (s : State) (v : Byte) : (s.set8 .a v).port = s.port := rfl
@[simp] theorem State.set8_a_display (s : State) (v : Byte) : (s.set8 .a v).display = s.display := rfl
@[simp] theorem State.set8_a_params (s : State) (v : Byte) : (s.set8 .a v).params = s.params := rfl
@[simp] theorem State.set8_b_a (s : State) (v : Byte) : (s.set8 .b v).a = s.a := rfl
@[simp] theorem State.set8_b_b (s : State) (v : Byte) : (s.set8 .b v).b = v := rfl
@[simp] theorem State.set8_b_c (s : State) (v : Byte) : (s.set8 .b v).c = s.c := rfl
@[simp] theorem State.set8_b_d (s : State) (v : Byte) : (s.set8 .b v).d = s.d := rfl
@[simp] theorem State.set8_b_e (s : State) (v : Byte) : (s.set8 .b v).e = s.e := rfl
@[simp] theorem State.set8_b_f (s : State) (v : Byte) : (s.set8 .b v).f = s.f := rfl
@[simp] theorem State.set8_b_h (s : State) (v : Byte) : (s.set8 .b v).h = s.h := rfl
@[simp] theorem State.set8_b_l (s : State) (v : Byte) : (s.set8 .b v).l = s.l := rfl
@[simp] theorem State.set8_b_sp (s : State) (v : Byte) : (s.set8 .b v).sp = s.sp := rfl
@[simp] theorem State.set8_b_pc (s : State) (v : Byte) : (s.set8 .b v).pc = s.pc := rfl
@[simp] theorem State.set8_b_mem (s : State) (v : Byte) : (s.set8 .b v).mem = s.mem := rfl
@[simp] theorem State.set8_b_fault (s : State) (v : Byte) : (s.set8 .b v).fault = s.fault := rfl
@[simp] theorem State.set8_b_susp (s : State) (v : Byte) : (s.set8 .b v).susp = s.susp := rfl
@[simp] theorem State.set8_b_port (s : State) (v : Byte) : (s.set8 .b v).port = s.port := rfl
@[simp] theorem State.set8_b_display (s : State) (v : Byte) : (s.set8 .b v).display = s.display := rfl
@[simp] theorem State.set8_b_params (s : State) (v : Byte) : (s.set8 .b v).params = s.params := rfl
@[simp] theorem State.set8_c_a (s : State) (v : Byte) : (s.set8 .c v).a = s.a := rfl
@[simp] theorem State.set8_c_b (s : State) (v : Byte) : (s.set8 .c v).b = s.b := rfl
@[simp] theorem State.set8_c_c (s : State) (v : Byte) : (s.set8 .c v).c = v := rfl
@[simp] theorem State.set8_c_d (s : State) (v : Byte) : (s.set8 .c v).d = s.d := rfl
@[simp] theorem State.set8_c_e (s : State) (v : Byte) : (s.set8 .c v).e = s.e := rfl
@[simp] theorem State.set8_c_f (s : State) (v : Byte) : (s.set8 .c v).f = s.f := rfl
@[simp] theorem State.set8_c_h (s : State) (v : Byte) : (s.set8 .c v).h = s.h := rfl
@[simp] theorem State.set8_c_l (s : State) (v : Byte) : (s.set8 .c v).l = s.l := rfl
@[simp] theorem State.set8_c_sp (s : State) (v : Byte) : (s.set8 .c v).sp = s.sp := rfl
@[simp] theorem State.set8_c_pc (s : State) (v : Byte) : (s.set8 .c v).pc = s.pc := rfl
@[simp] theorem State.set8_c_mem (s : State) (v : Byte) : (s.set8 .c v).mem = s.mem := rfl
@[simp] theorem State.set8_c_fault (s : State) (v : Byte) : (s.set8 .c v).fault = s.fault := rfl
@[simp] theorem State.set8_c_susp (s : State) (v : Byte) : (s.set8 .c v).susp = s.susp := rfl
@[simp] theorem State.set8_c_port (s : State) (v : Byte) : (s.set8 .c v).port = s.port := rfl
@[simp] theorem State.set8_c_display (s : State) (v : Byte) : (s.set8 .c v).display = s.display := rfl
@[simp] theorem State.set8_c_params (s : State) (v : Byte) : (s.set8 .c v).params = s.params := rfl
@[simp] theorem State.set8_d_a (s : State) (v : Byte) : (s.set8 .d v).a = s.a := rfl
@[simp] theorem State.set8_d_b (s : State) (v : Byte) : (s.set8 .d v).b = s.b := rfl
@[simp] theorem State.set8_d_c (s : State) (v : Byte) : (s.set8 .d v).c = s.c := rfl
@[simp] theorem State.set8_d_d (s : State) (v : Byte) : (s.set8 .d v).d = v := rfl
@[simp] theorem State.set8_d_e (s : State) (v : Byte) : (s.set8 .d v).e = s.e := rfl
@[simp] theorem State.set8_d_f (s : State) (v : Byte) : (s.set8 .d v).f = s.f := rfl
@[simp] theorem State.set8_d_h (s : State) (v : Byte) : (s.set8 .d v).h = s.h := rfl
@[simp] theorem State.set8_d_l (s : State) (v : Byte) : (s.set8 .d v).l = s.l := rfl
@[simp] theorem State.set8_d_sp (s : State) (v : Byte) : (s.set8 .d v).sp = s.sp := rfl
@[simp] theorem State.set8_d_pc (s : State) (v : Byte) : (s.set8 .d v).pc = s.pc := rfl
@[simp] theorem State.set8_d_mem (s : State) (v : Byte) : (s.set8 .d v).mem = s.mem := rfl
@[simp] theorem State.set8_d_fault (s : State) (v : Byte) : (s.set8 .d v).fault = s.fault := rfl
@[simp] theorem State.set8_d_susp (s : State) (v : Byte) : (s.set8 .d v).susp = s.susp := rfl
@[simp] theorem State.set8_d_port (s : State) (v : Byte) : (s.set8 .d v).port = s.port := rfl
@[simp] theorem State.set8_d_display (s : State) (v : Byte) : (s.set8 .d v).display = s.display := rfl
@[simp] theorem State.set8_d_params (s : State) (v : Byte) : (s.set8 .d v).params = s.params := rfl
@[simp] theorem State.set8_e_a (s : State) (v : Byte) : (s.set8 .e v).a = s.a := rfl
@[simp] theorem State.set8_e_b (s : State) (v : Byte) : (s.set8 .e v).b = s.b := rfl
@[simp] theorem State.set8_e_c (s : State) (v : Byte) : (s.set8 .e v).c = s.c := rfl
@[simp] theorem State.set8_e_d (s : State) (v : Byte) : (s.set8 .e v).d = s.d := rfl
@[simp] theorem State.set8_e_e (s : State) (v : Byte) : (s.set8 .e v).e = v := rfl
@[simp] theorem State.set8_e_f (s : State) (v : Byte) : (s.set8 .e v).f = s.f := rfl
@[simp] theorem State.set8_e_h (s : State) (v : Byte) : (s.set8 .e v).h = s.h := rfl
@[simp] theorem State.set8_e_l (s : State) (v : Byte) : (s.set8 .e v).l = s.l := rfl
@[simp] theorem State.set8_e_sp (s : State) (v : Byte) : (s.set8 .e v).sp = s.sp := rfl
@[simp] theorem State.set8_e_pc (s : State) (v : Byte) : (s.set8 .e v).pc = s.pc := rfl
@[simp] theorem State.set8_e_mem (s : State) (v : Byte) : (s.set8 .e v).mem = s.mem := rfl
@[simp] theorem State.set8_e_fault (s : State) (v : Byte) : (s.set8 .e v).fault = s.fault := rfl
@[simp] theorem State.set8_e_susp (s : State) (v : Byte) : (s.set8 .e v).susp = s.susp := rfl
@[simp] theorem State.set8_e_port (s : State) (v : Byte) : (s.set8 .e v).port = s.port := rfl
@[simp] theorem State.set8_e_display (s : State) (v : Byte) : (s.set8 .e v).display = s.display := rfl
@[simp] theorem State.set8_e_params (s : State) (v : Byte) : (s.set8 .e v).params = s.params := rfl
@[simp] theorem State.set8_f_a (s : State) (v : Byte) : (s.set8 .f v).a = s.a := rfl
@[simp] theorem State.set8_f_b (s : State) (v : Byte) : (s.set8 .f v).b = s.b := rfl
@[simp] theorem State.set8_f_c (s : State) (v : Byte) : (s.set8 .f v).c = s.c := rfl
@[simp] theorem State.set8_f_d (s : State) (v : Byte) : (s.set8 .f v).d = s.d := rfl
@[simp] theorem State.set8_f_e (s : State) (v : Byte) : (s.set8 .f v).e = s.e := rfl
@[simp] theorem State.set8_f_f (s : State) (v : Byte) : (s.set8 .f v).f = v := rfl
@[simp] theorem State.set8_f_h (s : State) (v : Byte) : (s.set8 .f v).h = s.h := rfl
@[simp] theorem State.set8_f_l (s : State) (v : Byte) : (s.set8 .f v).l = s.l := rfl
@[simp] theorem State.set8_f_sp (s : State) (v : Byte) : (s.set8 .f v).sp = s.sp := rfl
@[simp] theorem State.set8_f_pc (s : State) (v : Byte) : (s.set8 .f v).pc = s.pc := rfl
@[simp] theorem State.set8_f_mem (s : State) (v : Byte) : (s.set8 .f v).mem = s.mem := rfl
@[simp] theorem State.set8_f_fault (s : State) (v : Byte) : (s.set8 .f v).fault = s.fault := rfl
@[simp] theorem State.set8_f_susp (s : State) (v : Byte) : (s.set8 .f v).susp = s.susp := rfl
@[simp] theorem State.set8_f_port (s : State) (v : Byte) : (s.set8 .f v).port = s.port := rfl
@[simp] theorem State.set8_f_display (s : State) (v : Byte) : (s.set8 .f v).display = s.display := rfl
@[simp] theorem State.set8_f_params (s : State) (v : Byte) : (s.set8 .f v).params = s.params := rfl
@[simp] theorem State.set8_h_a (s : State) (v : Byte) : (s.set8 .h v).a = s.a := rfl
@[simp] theorem State.set8_h_b (s : State) (v : Byte) : (s.set8 .h v).b = s.b := rfl
@[simp] theorem State.set8_h_c (s : State) (v : Byte) : (s.set8 .h v).c = s.c := rfl
@[simp] theorem State.set8_h_d (s : State) (v : Byte) : (s.set8 .h v).d = s.d := rfl
@[simp] theorem State.set8_h_e (s : State) (v : Byte) : (s.set8 .h v).e = s.e := rfl
@[simp] theorem State.set8_h_f (s : State) (v : Byte) : (s.set8 .h v).f = s.f := rfl
@[simp] theorem State.set8_h_h (s : State) (v : Byte) : (s.set8 .h v).h = v := rfl
@[simp] theorem State.set8_h_l (s : State) (v : Byte) : (s.set8 .h v).l = s.l := rfl
@[simp] theorem State.set8_h_sp (s : State) (v : Byte) : (s.set8 .h v).sp = s.sp := rfl
@[simp] theorem State.set8_h_pc (s : State) (v : Byte) : (s.set8 .h v).pc = s.pc := rfl
@[simp] theorem State.set8_h_mem (s : State) (v : Byte) : (s.set8 .h v).mem = s.mem := rfl
@[simp] theorem State.set8_h_fault (s : State) (v : Byte) : (s.set8 .h v).fault = s.fault := rfl
@[simp] theorem State.set8_h_susp (s : State) (v : Byte) : (s.set8 .h v).susp = s.susp := rfl
@[simp] theorem State.set8_h_port (s : State) (v : Byte) : (s.set8 .h v).port = s.port := rfl
@[simp] theorem State.set8_h_display (s : State) (v : Byte) : (s.set8 .h v).display = s.display := rfl
@[simp] theorem State.set8_h_params (s : State) (v : Byte) : (s.set8 .h v).params = s.params := rfl
@[simp] theorem State.set8_l_a (s : State) (v : Byte) : (s.set8 .l v).a = s.a := rfl
@[simp] theorem State.set8_l_b (s : State) (v : Byte) : (s.set8 .l v).b = s.b := rfl
@[simp] theorem State.set8_l_c (s : State) (v : Byte) : (s.set8 .l v).c = s.c := rfl
@[simp] theorem State.set8_l_d (s : State) (v : Byte) : (s.set8 .l v).d = s.d := rfl
@[simp] theorem State.set8_l_e (s : State) (v : Byte) : (s.set8 .l v).e = s.e := rfl
@[simp] theorem State.set8_l_f (s : State) (v : Byte) : (s.set8 .l v).f = s.f := rfl
@[simp] theorem State.set8_l_h (s : State) (v : Byte) : (s.set8 .l v).h = s.h := rfl
@[simp] theorem State.set8_l_l (s : State) (v : Byte) : (s.set8 .l v).l = v := rfl
@[simp] theorem State.set8_l_sp (s : State) (v : Byte) : (s.set8 .l v).sp = s.sp := rfl
@[simp] theorem State.set8_l_pc (s : State) (v : Byte) : (s.set8 .l v).pc = s.pc := rfl
@[simp] theorem State.set8_l_mem (s : State) (v : Byte) : (s.set8 .l v).mem = s.mem := rfl
@[simp] theorem State.set8_l_fault (s : State) (v : Byte) : (s.set8 .l v).fault = s.fault := rfl
@[simp] theorem State.set8_l_susp (s : State) (v : Byte) : (s.set8 .l v).susp = s.susp := rfl
@[simp] theorem State.set8_l_port (s : State) (v : Byte) : (s.set8 .l v).port = s.port := rfl
@[simp] theorem State.set8_l_display (s : State) (v : Byte) : (s.set8 .l v).display = s.display := rfl
@[simp] theorem State.set8_l_params (s : State) (v : Byte) : (s.set8 .l v).params = s.params := rfl

@[simp] theorem State.set8_sp (s : State) (r : Reg8) (v : Byte) : (s.set8 r v).sp = s.sp := by cases r <;> rfl
@[simp] theorem State.set8_pc (s : State) (r : Reg8) (v : Byte) : (s.set8 r v).pc = s.pc := by cases r <;> rfl
@[simp] theorem State.set8_mem (s : State) (r : Reg8) (v : Byte) : (s.set8 r v).mem = s.mem := by cases r <;> rfl
@[simp] theorem State.set8_fault (s : State) (r : Reg8) (v : Byte) : (s.set8 r v).fault = s.fault := by cases r <;> rfl
@[simp] theorem State.set8_susp (s : State) (r : Reg8) (v : Byte) : (s.set8 r v).susp = s.susp := by cases r <;> rfl
@[simp] theorem State.set8_port (s : State) (r : Reg8) (v : Byte) : (s.set8 r v).port = s.port := by cases r <;> rfl
@[simp] theorem State.set8_display (s : State) (r : Reg8) (v : Byte) : (s.set8 r v).display = s.display := by cases r <;> rfl
@[simp] theorem State.set8_params (s : State) (r : Reg8) (v : Byte) : (s.set8 r v).params = s.params := by cases r <;> rfl

@[simp] theorem State.setSp_a (s : State) (w : Word) : (s.setSp w).a = s.a := rfl
@[simp] theorem State.setSp_b (s : State) (w : Word) : (s.setSp w).b = s.b := rfl
@[simp] theorem State.setSp_c (s : State) (w : Word) : (s.setSp w).c = s.c := rfl
@[simp] theorem State.setSp_d (s : State) (w : Word) : (s.setSp w).d = s.d := rfl
@[simp] theorem State.setSp_e (s : State) (w : Word) : (s.setSp w).e = s.e := rfl
@[simp] theorem State.setSp_f (s : State) (w : Word) : (s.setSp w).f = s.f := rfl
@[simp] theorem State.setSp_h (s : State) (w : Word) : (s.setSp w).h = s.h := rfl
@[simp] theorem State.setSp_l (s : State) (w : Word) : (s.setSp w).l = s.l := rfl
@[simp] theorem State.setSp_sp (s : State) (w : Word) : (s.setSp w).sp = w := rfl
@[simp] theorem State.setSp_pc (s : State) (w : Word) : (s.setSp w).pc = s.pc := rfl
@[simp] theorem State.setSp_mem (s : State) (w : Word) : (s.setSp w).mem = s.mem := rfl
@[simp] theorem State.setSp_fault (s : State) (w : Word) : (s.setSp w).fault = s.fault := rfl
@[simp] theorem State.setSp_susp (s : State) (w : Word) : (s.setSp w).susp = s.susp := rfl
@[simp] theorem State.setSp_port (s : State) (w : Word) : (s.setSp w).port = s.port := rfl
@[simp] theorem State.setSp_display (s : State) (w : Word) : (s.setSp w).display = s.display := rfl
@[simp] theorem State.setSp_params (s : State) (w : Word) : (s.setSp w).params = s.params := rfl
@[simp] theorem State.setSp_get8 (s : State) (w : Word) (q : Reg8) : (s.setSp w).get8 q = s.get8 q := by cases q <;> rfl

@[simp] theorem State.setPc_a (s : State) (w : Word) : (s.setPc w).a = s.a := rfl
@[simp] theorem State.setPc_b (s : State) (w : Word) : (s.setPc w).b = s.b := rfl
@[simp] theorem State.setPc_c (s : State) (w : Word) : (s.setPc w).c = s.c := rfl
@[simp] theorem State.setPc_d (s : State) (w : Word) : (s.setPc w).d = s.d := rfl
@[simp] theorem State.setPc_e (s : State) (w : Word) : (s.setPc w).e = s.e := rfl
@[simp] theorem State.setPc_f (s : State) (w : Word) : (s.setPc w).f = s.f := rfl
@[simp] theorem State.setPc_h (s : State) (w : Word) : (s.setPc w).h = s.h := rfl
@[simp] theorem State.setPc_l (s : State) (w : Word) : (s.setPc w).l = s.l := rfl
@[simp] theorem State.setPc_sp (s : State) (w : Word) : (s.setPc w).sp = s.sp := rfl
@[simp] theorem State.setPc_pc (s : State) (w : Word) : (s.setPc w).pc = w := rfl
@[simp] theorem State.setPc_mem (s : State) (w : Word) : (s.setPc w).mem = s.mem := rfl
@[simp] theorem State.setPc_fault (s : State) (w : Word) : (s.setPc w).fault = s.fault := rfl
@[simp] theorem State.setPc_susp (s : State) (w : Word) : (s.setPc w).susp = s.susp := rfl
@[simp] theorem State.setPc_port (s : State) (w : Word) : (s.setPc w).port = s.port := rfl
@[simp] theorem State.setPc_display (s : State) (w : Word) : (s.setPc w).display = s.display := rfl
@[simp] theorem State.setPc_params (s : State) (w : Word) : (s.setPc w).params = s.params := rfl
@[simp] theorem State.setPc_get8 (s : State) (w : Word) (q : Reg8) : (s.setPc w).get8 q = s.get8 q := by cases q <;> rfl

@[simp] theorem State.latch_a (s : State) (x : FaultName) : (s.latch x).a = s.a := rfl
@[simp] theorem State.latch_b (s : State) (x : FaultName) : (s.latch x).b = s.b := rfl
@[simp] theorem State.latch_c (s : State) (x : FaultName) : (s.latch x).c = s.c := rfl
@[simp] theorem State.latch_d (s : State) (x : FaultName) : (s.latch x).d = s.d := rfl
@[simp] theorem State.latch_e (s : State) (x : FaultName) : (s.latch x).e = s.e := rfl
@[simp] theorem State.latch_f (s : State) (x : FaultName) : (s.latch x).f = s.f := rfl
@[simp] theorem State.latch_h (s : State) (x : FaultName) : (s.latch x).h = s.h := rfl
@[simp] theorem State.latch_l (s : State) (x : FaultName) : (s.latch x).l = s.l := rfl
@[simp] theorem State.latch_sp (s : State) (x : FaultName) : (s.latch x).sp = s.sp := rfl
@[simp] theorem State.latch_pc (s : State) (x : FaultName) : (s.latch x).pc = s.pc := rfl
@[simp] theorem State.latch_mem (s : State) (x : FaultName) : (s.latch x).mem = s.mem := rfl
@[simp] theorem State.latch_fault (s : State) (x : FaultName) : (s.latch x).fault = some x := rfl
@[simp] theorem State.latch_susp (s : State) (x : FaultName) : (s.latch x).susp = s.susp := rfl
@[simp] theorem State.latch_port (s : State) (x : FaultName) : (s.latch x).port = s.port := rfl
@[simp] theorem State.latch_display (s : State) (x : FaultName) : (s.latch x).display = s.display := rfl
@[simp] theorem State.latch_params (s : State) (x : FaultName) : (s.latch x).params = s.params := rfl
@[simp] theorem State.latch_get8 (s : State) (x : FaultName) (q : Reg8) : (s.latch x).get8 q = s.get8 q := by cases q <;> rfl

@[simp] theorem State.emitSusp_a (s : State) (a : Word) (dir : Direction) (v : Byte) : (s.emitSusp a dir v).a = s.a := rfl
@[simp] theorem State.emitSusp_b (s : State) (a : Word) (dir : Direction) (v : Byte) : (s.emitSusp a dir v).b = s.b := rfl
@[simp] theorem State.emitSusp_c (s : State) (a : Word) (dir : Direction) (v : Byte) : (s.emitSusp a dir v).c = s.c := rfl
@[simp] theorem State.emitSusp_d (s : State) (a : Word) (dir : Direction) (v : Byte) : (s.emitSusp a dir v).d = s.d := rfl
@[simp] theorem State.emitSusp_e (s : State) (a : Word) (dir : Direction) (v : Byte) : (s.emitSusp a dir v).e = s.e := rfl
@[simp] theorem State.emitSusp_f (s : State) (a : Word) (dir : Direction) (v : Byte) : (s.emitSusp a dir v).f = s.f := rfl
@[simp] theorem State.emitSusp_h (s : State) (a : Word) (dir : Direction) (v : Byte) : (s.emitSusp a dir v).h = s.h := rfl
@[simp] theorem State.emitSusp_l (s : State) (a : Word) (dir : Direction) (v : Byte) : (s.emitSusp a dir v).l = s.l := rfl
@[simp] theorem State.emitSusp_sp (s : State) (a : Word) (dir : Direction) (v : Byte) : (s.emitSusp a dir v).sp = s.sp := rfl
@[simp] theorem State.emitSusp_pc (s : State) (a : Word) (dir : Direction) (v : Byte) : (s.emitSusp a dir v).pc = s.pc := rfl
@[simp] theorem State.emitSusp_mem (s : State) (a : Word) (dir : Direction) (v : Byte) : (s.emitSusp a dir v).mem = s.mem := rfl
@[simp] theorem State.emitSusp_fault (s : State) (a : Word) (dir : Direction) (v : Byte) : (s.emitSusp a dir v).fault = s.fault := rfl
@[simp] theorem State.emitSusp_susp (s : State) (a : Word) (dir : Direction) (v : Byte) : (s.emitSusp a dir v).susp = s.susp ++ [⟨a, dir, v⟩] := rfl
@[simp] theorem State.emitSusp_port (s : State) (a : Word) (dir : Direction) (v : Byte) : (s.emitSusp a dir v).port = s.port := rfl
@[simp] theorem State.emitSusp_display (s : State) (a : Word) (dir : Direction) (v : Byte) : (s.emitSusp a dir v).display = s.display := rfl
@[simp] theorem State.emitSusp_params (s : State) (a : Word) (dir : Direction) (v : Byte) : (s.emitSusp a dir v).params = s.params := rfl
@[simp] theorem State.emitSusp_get8 (s : State) (a : Word) (dir : Direction) (v : Byte) (q : Reg8) : (s.emitSusp a dir v).get8 q = s.get8 q := by cases q <;> rfl

@[simp] theorem State.emitPort_a (s : State) (ev : PortEvent) : (s.emitPort ev).a = s.a := rfl
@[simp] theorem State.emitPort_b (s : State) (ev : PortEvent) : (s.emitPort ev).b = s.b := rfl
@[simp] theorem State.emitPort_c (s : State) (ev : PortEvent) : (s.emitPort ev).c = s.c := rfl
@[simp] theorem State.emitPort_d (s : State) (ev : PortEvent) : (s.emitPort ev).d = s.d := rfl
@[simp] theorem State.emitPort_e (s : State) (ev : PortEvent) : (s.emitPort ev).e = s.e := rfl
@[simp] theorem State.emitPort_f (s : State) (ev : PortEvent) : (s.emitPort ev).f = s.f := rfl
@[simp] theorem State.emitPort_h (s : State) (ev : PortEvent) : (s.emitPort ev).h = s.h := rfl
@[simp] theorem State.emitPort_l (s : State) (ev : PortEvent) : (s.emitPort ev).l = s.l := rfl
@[simp] theorem State.emitPort_sp (s : State) (ev : PortEvent) : (s.emitPort ev).sp = s.sp := rfl
@[simp] theorem State.emitPort_pc (s : State) (ev : PortEvent) : (s.emitPort ev).pc = s.pc := rfl
@[simp] theorem State.emitPort_mem (s : State) (ev : PortEvent) : (s.emitPort ev).mem = s.mem := rfl
@[simp] theorem State.emitPort_fault (s : State) (ev : PortEvent) : (s.emitPort ev).fault = s.fault := rfl
@[simp] theorem State.emitPort_susp (s : State) (ev : PortEvent) : (s.emitPort ev).susp = s.susp := rfl
@[simp] theorem State.emitPort_port (s : State) (ev : PortEvent) : (s.emitPort ev).port = s.port ++ [ev] := rfl
@[simp] theorem State.emitPort_display (s : State) (ev : PortEvent) : (s.emitPort ev).display = s.display := rfl
@[simp] theorem State.emitPort_params (s : State) (ev : PortEvent) : (s.emitPort ev).params = s.params := rfl
@[simp] theorem State.emitPort_get8 (s : State) (ev : PortEvent) (q : Reg8) : (s.emitPort ev).get8 q = s.get8 q := by cases q <;> rfl

@[simp] theorem State.setCell_a (s : State) (a : Word) (v : Byte) : (s.setCell a v).a = s.a := rfl
@[simp] theorem State.setCell_b (s : State) (a : Word) (v : Byte) : (s.setCell a v).b = s.b := rfl
@[simp] theorem State.setCell_c (s : State) (a : Word) (v : Byte) : (s.setCell a v).c = s.c := rfl
@[simp] theorem State.setCell_d (s : State) (a : Word) (v : Byte) : (s.setCell a v).d = s.d := rfl
@[simp] theorem State.setCell_e (s : State) (a : Word) (v : Byte) : (s.setCell a v).e = s.e := rfl
@[simp] theorem State.setCell_f (s : State) (a : Word) (v : Byte) : (s.setCell a v).f = s.f := rfl
@[simp] theorem State.setCell_h (s : State) (a : Word) (v : Byte) : (s.setCell a v).h = s.h := rfl
@[simp] theorem State.setCell_l (s : State) (a : Word) (v : Byte) : (s.setCell a v).l = s.l := rfl
@[simp] theorem State.setCell_sp (s : State) (a : Word) (v : Byte) : (s.setCell a v).sp = s.sp := rfl
@[simp] theorem State.setCell_pc (s : State) (a : Word) (v : Byte) : (s.setCell a v).pc = s.pc := rfl
@[simp] theorem State.setCell_mem (s : State) (a : Word) (v : Byte) : (s.setCell a v).mem = s.mem.write (cellOf a) v := rfl
@[simp] theorem State.setCell_fault (s : State) (a : Word) (v : Byte) : (s.setCell a v).fault = s.fault := rfl
@[simp] theorem State.setCell_susp (s : State) (a : Word) (v : Byte) : (s.setCell a v).susp = s.susp := rfl
@[simp] theorem State.setCell_port (s : State) (a : Word) (v : Byte) : (s.setCell a v).port = s.port := rfl
@[simp] theorem State.setCell_display (s : State) (a : Word) (v : Byte) : (s.setCell a v).display = s.display := rfl
@[simp] theorem State.setCell_params (s : State) (a : Word) (v : Byte) : (s.setCell a v).params = s.params := rfl
@[simp] theorem State.setCell_get8 (s : State) (a : Word) (v : Byte) (q : Reg8) : (s.setCell a v).get8 q = s.get8 q := by cases q <;> rfl

/-! ### The register accessors -/

@[simp] theorem State.get8_set8_same (s : State) (r : Reg8) (v : Byte) : (s.set8 r v).get8 r = v := by
  cases r <;> rfl

theorem State.get8_set8_other (s : State) {r q : Reg8} (v : Byte) (h : q ≠ r) :
    (s.set8 r v).get8 q = s.get8 q := by
  cases r <;> cases q <;> first | rfl | exact absurd rfl h

theorem getLsbD_cat (h l : Byte) (i : Nat) :
    (cat h l).getLsbD i = bif decide (i < 8) then l.getLsbD i else h.getLsbD (i - 8) := by
  have e := BitVec.getLsbD_append (x := h) (y := l) (i := i)
  by_cases hi : i < 8 <;> simp [hi] at e ⊢ <;> exact e

@[simp] theorem hi8_cat (h l : Byte) : hi8 (cat h l) = h := by
  apply BitVec.eq_of_getLsbD_eq
  intro i hi
  simp [hi8, getLsbD_cat, hi]

@[simp] theorem lo8_cat (h l : Byte) : lo8 (cat h l) = l := by
  apply BitVec.eq_of_getLsbD_eq
  intro i hi
  simp [lo8, getLsbD_cat, hi]

@[simp] theorem cat_hi8_lo8 (w : Word) : cat (hi8 w) (lo8 w) = w := by
  apply BitVec.eq_of_getLsbD_eq
  intro i hi
  rw [getLsbD_cat]
  by_cases h : i < 8
  · simp [h, lo8]
  · have h8 : i - 8 < 8 := by omega
    simp [h, hi8, h8, show 8 + (i - 8) = i by omega]
@[simp] theorem State.set16_pc (s : State) (p : Pair) (w : Word) : (s.set16 p w).pc = s.pc := by cases p <;> rfl
@[simp] theorem State.set16_mem (s : State) (p : Pair) (w : Word) : (s.set16 p w).mem = s.mem := by cases p <;> rfl
@[simp] theorem State.set16_fault (s : State) (p : Pair) (w : Word) : (s.set16 p w).fault = s.fault := by cases p <;> rfl
@[simp] theorem State.set16_susp (s : State) (p : Pair) (w : Word) : (s.set16 p w).susp = s.susp := by cases p <;> rfl
@[simp] theorem State.set16_port (s : State) (p : Pair) (w : Word) : (s.set16 p w).port = s.port := by cases p <;> rfl
@[simp] theorem State.set16_display (s : State) (p : Pair) (w : Word) : (s.set16 p w).display = s.display := by cases p <;> rfl
@[simp] theorem State.set16_params (s : State) (p : Pair) (w : Word) : (s.set16 p w).params = s.params := by cases p <;> rfl

end Sys2Proof.Machine
end

