-- ==== Sys2Proof/Laws/Ops.lean ====
section
/-!
SUPPORT. For each shared operation, once, everything it can do: the bus (R50), the operands (R105), the
stack (R112, R113), the commit of a proposal (R109), FLAG-COMMIT and ADVANCE, and the taking of a fault.
-/

-- Many small theorems in one file: elaborated one after another, so that they do not each hold a thread.
set_option Elab.async false

namespace Sys2Proof.Machine

/-! ### The bus -/

/-- Every address resolves to a cell of the store (R40, R49). -/
theorem cellOf_lt (a : Word) : cellOf a < 65536 := by
  have := a.isLt
  unfold cellOf
  split <;> omega

/-- No address resolves to a cell of 0xE000 to 0xFDFF (R42). -/
theorem cellOf_not_echo (a : Word) : ¬ (0xE000 ≤ cellOf a ∧ cellOf a ≤ 0xFDFF) := by
  unfold cellOf
  split <;> omega

/-- A bus read changes nothing but the two output streams (R55). -/
theorem State.afterRead_eq (s : State) (a : Word) :
    s.afterRead a = { s with susp := (s.afterRead a).susp, port := (s.afterRead a).port } := by
  unfold State.afterRead
  split
  · split <;> rfl
  · rfl
  · rfl

/-- A bus write changes one cell and nothing else but the two output streams (R50). -/
theorem State.memWrite_eq (s : State) (a : Word) (v : Byte) :
    s.memWrite a v =
      { s with mem := s.mem.write (cellOf a) v, susp := (s.memWrite a v).susp, port := (s.memWrite a v).port } := by
  unfold State.memWrite
  split <;> rfl

@[simp] theorem State.afterRead_a (s : State) (a : Word) : (s.afterRead a).a = s.a := by
  rw [State.afterRead_eq]
@[simp] theorem State.afterRead_b (s : State) (a : Word) : (s.afterRead a).b = s.b := by
  rw [State.afterRead_eq]
@[simp] theorem State.afterRead_c (s : State) (a : Word) : (s.afterRead a).c = s.c := by
  rw [State.afterRead_eq]
@[simp] theorem State.afterRead_d (s : State) (a : Word) : (s.afterRead a).d = s.d := by
  rw [State.afterRead_eq]
@[simp] theorem State.afterRead_e (s : State) (a : Word) : (s.afterRead a).e = s.e := by
  rw [State.afterRead_eq]
@[simp] theorem State.afterRead_f (s : State) (a : Word) : (s.afterRead a).f = s.f := by
  rw [State.afterRead_eq]
@[simp] theorem State.afterRead_h (s : State) (a : Word) : (s.afterRead a).h = s.h := by
  rw [State.afterRead_eq]
@[simp] theorem State.afterRead_l (s : State) (a : Word) : (s.afterRead a).l = s.l := by
  rw [State.afterRead_eq]
@[simp] theorem State.afterRead_sp (s : State) (a : Word) : (s.afterRead a).sp = s.sp := by
  rw [State.afterRead_eq]
@[simp] theorem State.afterRead_pc (s : State) (a : Word) : (s.afterRead a).pc = s.pc := by
  rw [State.afterRead_eq]
@[simp] theorem State.afterRead_mem (s : State) (a : Word) : (s.afterRead a).mem = s.mem := by
  rw [State.afterRead_eq]
@[simp] theorem State.afterRead_fault (s : State) (a : Word) : (s.afterRead a).fault = s.fault := by
  rw [State.afterRead_eq]
@[simp] theorem State.afterRead_display (s : State) (a : Word) : (s.afterRead a).display = s.display := by
  rw [State.afterRead_eq]
@[simp] theorem State.afterRead_params (s : State) (a : Word) : (s.afterRead a).params = s.params := by
  rw [State.afterRead_eq]
@[simp] theorem State.afterRead_get8 (s : State) (a : Word) (q : Reg8) : (s.afterRead a).get8 q = s.get8 q := by
  cases q <;> simp [State.get8]
@[simp] theorem State.afterRead_get16 (s : State) (a : Word) (p : Pair) : (s.afterRead a).get16 p = s.get16 p := by
  cases p <;> simp [State.get16]

@[simp] theorem State.memWrite_a (s : State) (a : Word) (v : Byte) : (s.memWrite a v).a = s.a := by
  rw [State.memWrite_eq]
@[simp] theorem State.memWrite_b (s : State) (a : Word) (v : Byte) : (s.memWrite a v).b = s.b := by
  rw [State.memWrite_eq]
@[simp] theorem State.memWrite_c (s : State) (a : Word) (v : Byte) : (s.memWrite a v).c = s.c := by
  rw [State.memWrite_eq]
@[simp] theorem State.memWrite_d (s : State) (a : Word) (v : Byte) : (s.memWrite a v).d = s.d := by
  rw [State.memWrite_eq]
@[simp] theorem State.memWrite_e (s : State) (a : Word) (v : Byte) : (s.memWrite a v).e = s.e := by
  rw [State.memWrite_eq]
@[simp] theorem State.memWrite_f (s : State) (a : Word) (v : Byte) : (s.memWrite a v).f = s.f := by
  rw [State.memWrite_eq]
@[simp] theorem State.memWrite_h (s : State) (a : Word) (v : Byte) : (s.memWrite a v).h = s.h := by
  rw [State.memWrite_eq]
@[simp] theorem State.memWrite_l (s : State) (a : Word) (v : Byte) : (s.memWrite a v).l = s.l := by
  rw [State.memWrite_eq]
@[simp] theorem State.memWrite_sp (s : State) (a : Word) (v : Byte) : (s.memWrite a v).sp = s.sp := by
  rw [State.memWrite_eq]
@[simp] theorem State.memWrite_pc (s : State) (a : Word) (v : Byte) : (s.memWrite a v).pc = s.pc := by
  rw [State.memWrite_eq]
@[simp] theorem State.memWrite_fault (s : State) (a : Word) (v : Byte) : (s.memWrite a v).fault = s.fault := by
  rw [State.memWrite_eq]
@[simp] theorem State.memWrite_display (s : State) (a : Word) (v : Byte) : (s.memWrite a v).display = s.display := by
  rw [State.memWrite_eq]
@[simp] theorem State.memWrite_params (s : State) (a : Word) (v : Byte) : (s.memWrite a v).params = s.params := by
  rw [State.memWrite_eq]
@[simp] theorem State.memWrite_mem (s : State) (a : Word) (v : Byte) :
    (s.memWrite a v).mem = s.mem.write (cellOf a) v := by
  rw [State.memWrite_eq]
@[simp] theorem State.memWrite_get8 (s : State) (a : Word) (v : Byte) (q : Reg8) :
    (s.memWrite a v).get8 q = s.get8 q := by
  cases q <;> simp [State.get8]
@[simp] theorem State.memWrite_get16 (s : State) (a : Word) (v : Byte) (p : Pair) :
    (s.memWrite a v).get16 p = s.get16 p := by
  cases p <;> simp [State.get16]

/-- Every bus write keeps the store's canonical form. -/
theorem State.memWrite_wf (s : State) (a : Word) (v : Byte) (h : s.mem.wf = true) :
    (s.memWrite a v).mem.wf = true := by
  rw [State.memWrite_mem]
  exact Memory.write_wf v (cellOf_lt a) h

/-- A bus write leaves every other cell alone. -/
theorem State.memWrite_cell_other (s : State) (a : Word) (v : Byte) {k : Nat} (h : k ≠ cellOf a) :
    (s.memWrite a v).mem.read k = s.mem.read k := by
  rw [State.memWrite_mem]
  exact Memory.read_write_other s.mem v h

/-! ### Operands -/

@[simp] theorem State.read8_fst (s : State) (x : Opnd8) : (s.read8 x).1 = s.opndByte x := rfl
@[simp] theorem State.read8_snd (s : State) (x : Opnd8) : (s.read8 x).2 = s.afterOpnd x := rfl
@[simp] theorem State.memRead_fst (s : State) (a : Word) : (s.memRead a).1 = s.busByte a := rfl
@[simp] theorem State.memRead_snd (s : State) (a : Word) : (s.memRead a).2 = s.afterRead a := rfl

@[simp] theorem State.afterOpnd_a (s : State) (x : Opnd8) : (s.afterOpnd x).a = s.a := by
  cases x <;> simp [State.afterOpnd]
@[simp] theorem State.afterOpnd_b (s : State) (x : Opnd8) : (s.afterOpnd x).b = s.b := by
  cases x <;> simp [State.afterOpnd]
@[simp] theorem State.afterOpnd_c (s : State) (x : Opnd8) : (s.afterOpnd x).c = s.c := by
  cases x <;> simp [State.afterOpnd]
@[simp] theorem State.afterOpnd_d (s : State) (x : Opnd8) : (s.afterOpnd x).d = s.d := by
  cases x <;> simp [State.afterOpnd]
@[simp] theorem State.afterOpnd_e (s : State) (x : Opnd8) : (s.afterOpnd x).e = s.e := by
  cases x <;> simp [State.afterOpnd]
@[simp] theorem State.afterOpnd_f (s : State) (x : Opnd8) : (s.afterOpnd x).f = s.f := by
  cases x <;> simp [State.afterOpnd]
@[simp] theorem State.afterOpnd_h (s : State) (x : Opnd8) : (s.afterOpnd x).h = s.h := by
  cases x <;> simp [State.afterOpnd]
@[simp] theorem State.afterOpnd_l (s : State) (x : Opnd8) : (s.afterOpnd x).l = s.l := by
  cases x <;> simp [State.afterOpnd]
@[simp] theorem State.afterOpnd_sp (s : State) (x : Opnd8) : (s.afterOpnd x).sp = s.sp := by
  cases x <;> simp [State.afterOpnd]
@[simp] theorem State.afterOpnd_pc (s : State) (x : Opnd8) : (s.afterOpnd x).pc = s.pc := by
  cases x <;> simp [State.afterOpnd]
@[simp] theorem State.afterOpnd_mem (s : State) (x : Opnd8) : (s.afterOpnd x).mem = s.mem := by
  cases x <;> simp [State.afterOpnd]
@[simp] theorem State.afterOpnd_fault (s : State) (x : Opnd8) : (s.afterOpnd x).fault = s.fault := by
  cases x <;> simp [State.afterOpnd]
@[simp] theorem State.afterOpnd_display (s : State) (x : Opnd8) : (s.afterOpnd x).display = s.display := by
  cases x <;> simp [State.afterOpnd]
@[simp] theorem State.afterOpnd_params (s : State) (x : Opnd8) : (s.afterOpnd x).params = s.params := by
  cases x <;> simp [State.afterOpnd]
@[simp] theorem State.afterOpnd_get8 (s : State) (x : Opnd8) (q : Reg8) : (s.afterOpnd x).get8 q = s.get8 q := by
  cases q <;> simp [State.get8]

@[simp] theorem State.write8_sp (s : State) (x : Opnd8) (v : Byte) : (s.write8 x v).sp = s.sp := by
  cases x <;> simp [State.write8, State.setG]
@[simp] theorem State.write8_pc (s : State) (x : Opnd8) (v : Byte) : (s.write8 x v).pc = s.pc := by
  cases x <;> simp [State.write8, State.setG]
@[simp] theorem State.write8_fault (s : State) (x : Opnd8) (v : Byte) : (s.write8 x v).fault = s.fault := by
  cases x <;> simp [State.write8, State.setG]
@[simp] theorem State.write8_display (s : State) (x : Opnd8) (v : Byte) : (s.write8 x v).display = s.display := by
  cases x <;> simp [State.write8, State.setG]
@[simp] theorem State.write8_params (s : State) (x : Opnd8) (v : Byte) : (s.write8 x v).params = s.params := by
  cases x <;> simp [State.write8, State.setG]
@[simp] theorem State.write8_f (s : State) (x : Opnd8) (v : Byte) : (s.write8 x v).f = s.f := by
  rcases x with r | _
  · cases r <;> rfl
  · simp [State.write8]

/-- Writing an operand keeps the store's canonical form. -/
theorem State.write8_wf (s : State) (x : Opnd8) (v : Byte) (h : s.mem.wf = true) :
    (s.write8 x v).mem.wf = true := by
  cases x with
  | reg r => simpa [State.write8, State.setG] using h
  | hlInd => exact s.memWrite_wf _ v h

/-! ### The stack -/

/-- A push, field by field (R112). -/
theorem State.push16_eq (s : State) (w : Word) :
    s.push16 w =
      { (s.memWrite (s.sp - 1) (hi8 w)).memWrite (s.sp - 2) (lo8 w) with sp := s.sp - 2 } := rfl

@[simp] theorem State.push16_a (s : State) (w : Word) : (s.push16 w).a = s.a := by
  simp [State.push16]
@[simp] theorem State.push16_b (s : State) (w : Word) : (s.push16 w).b = s.b := by
  simp [State.push16]
@[simp] theorem State.push16_c (s : State) (w : Word) : (s.push16 w).c = s.c := by
  simp [State.push16]
@[simp] theorem State.push16_d (s : State) (w : Word) : (s.push16 w).d = s.d := by
  simp [State.push16]
@[simp] theorem State.push16_e (s : State) (w : Word) : (s.push16 w).e = s.e := by
  simp [State.push16]
@[simp] theorem State.push16_f (s : State) (w : Word) : (s.push16 w).f = s.f := by
  simp [State.push16]
@[simp] theorem State.push16_h (s : State) (w : Word) : (s.push16 w).h = s.h := by
  simp [State.push16]
@[simp] theorem State.push16_l (s : State) (w : Word) : (s.push16 w).l = s.l := by
  simp [State.push16]
@[simp] theorem State.push16_pc (s : State) (w : Word) : (s.push16 w).pc = s.pc := by
  simp [State.push16]
@[simp] theorem State.push16_fault (s : State) (w : Word) : (s.push16 w).fault = s.fault := by
  simp [State.push16]
@[simp] theorem State.push16_display (s : State) (w : Word) : (s.push16 w).display = s.display := by
  simp [State.push16]
@[simp] theorem State.push16_params (s : State) (w : Word) : (s.push16 w).params = s.params := by
  simp [State.push16]
@[simp] theorem State.push16_sp (s : State) (w : Word) : (s.push16 w).sp = s.sp - 2 := rfl
@[simp] theorem State.push16_mem (s : State) (w : Word) :
    (s.push16 w).mem = (s.mem.write (cellOf (s.sp - 1)) (hi8 w)).write (cellOf (s.sp - 2)) (lo8 w) := by
  simp [State.push16]

/-- A push keeps the store's canonical form. -/
theorem State.push16_wf (s : State) (w : Word) (h : s.mem.wf = true) : (s.push16 w).mem.wf = true := by
  rw [State.push16_mem]
  exact Memory.write_wf _ (cellOf_lt _) (Memory.write_wf _ (cellOf_lt _) h)

/-- A pop (R113): the two bytes and the state after them. -/
theorem State.pop16_eq (s : State) :
    s.pop16 =
      (cat ((s.afterRead s.sp).busByte (s.sp + 1)) (s.busByte s.sp),
        ((s.afterRead s.sp).afterRead (s.sp + 1)).setSp (s.sp + 2)) := rfl

@[simp] theorem State.pop16_a (s : State) : s.pop16.2.a = s.a := by
  simp [State.pop16_eq]
@[simp] theorem State.pop16_b (s : State) : s.pop16.2.b = s.b := by
  simp [State.pop16_eq]
@[simp] theorem State.pop16_c (s : State) : s.pop16.2.c = s.c := by
  simp [State.pop16_eq]
@[simp] theorem State.pop16_d (s : State) : s.pop16.2.d = s.d := by
  simp [State.pop16_eq]
@[simp] theorem State.pop16_e (s : State) : s.pop16.2.e = s.e := by
  simp [State.pop16_eq]
@[simp] theorem State.pop16_f (s : State) : s.pop16.2.f = s.f := by
  simp [State.pop16_eq]
@[simp] theorem State.pop16_h (s : State) : s.pop16.2.h = s.h := by
  simp [State.pop16_eq]
@[simp] theorem State.pop16_l (s : State) : s.pop16.2.l = s.l := by
  simp [State.pop16_eq]
@[simp] theorem State.pop16_pc (s : State) : s.pop16.2.pc = s.pc := by
  simp [State.pop16_eq]
@[simp] theorem State.pop16_mem (s : State) : s.pop16.2.mem = s.mem := by
  simp [State.pop16_eq]
@[simp] theorem State.pop16_fault (s : State) : s.pop16.2.fault = s.fault := by
  simp [State.pop16_eq]
@[simp] theorem State.pop16_display (s : State) : s.pop16.2.display = s.display := by
  simp [State.pop16_eq]
@[simp] theorem State.pop16_params (s : State) : s.pop16.2.params = s.params := by
  simp [State.pop16_eq]
@[simp] theorem State.pop16_sp (s : State) : s.pop16.2.sp = s.sp + 2 := rfl

/-! ### Flags, FLAG-COMMIT and ADVANCE -/

@[simp] theorem State.commit_a (s : State) (p : Proposal) : (s.commit p).a = s.a := rfl
@[simp] theorem State.commit_b (s : State) (p : Proposal) : (s.commit p).b = s.b := rfl
@[simp] theorem State.commit_c (s : State) (p : Proposal) : (s.commit p).c = s.c := rfl
@[simp] theorem State.commit_d (s : State) (p : Proposal) : (s.commit p).d = s.d := rfl
@[simp] theorem State.commit_e (s : State) (p : Proposal) : (s.commit p).e = s.e := rfl
@[simp] theorem State.commit_f (s : State) (p : Proposal) : (s.commit p).f = commitByte p s.f := rfl
@[simp] theorem State.commit_h (s : State) (p : Proposal) : (s.commit p).h = s.h := rfl
@[simp] theorem State.commit_l (s : State) (p : Proposal) : (s.commit p).l = s.l := rfl
@[simp] theorem State.commit_sp (s : State) (p : Proposal) : (s.commit p).sp = s.sp := rfl
@[simp] theorem State.commit_pc (s : State) (p : Proposal) : (s.commit p).pc = s.pc := rfl
@[simp] theorem State.commit_mem (s : State) (p : Proposal) : (s.commit p).mem = s.mem := rfl
@[simp] theorem State.commit_fault (s : State) (p : Proposal) : (s.commit p).fault = s.fault := rfl
@[simp] theorem State.commit_susp (s : State) (p : Proposal) : (s.commit p).susp = s.susp := rfl
@[simp] theorem State.commit_port (s : State) (p : Proposal) : (s.commit p).port = s.port := rfl
@[simp] theorem State.commit_display (s : State) (p : Proposal) : (s.commit p).display = s.display := rfl
@[simp] theorem State.commit_params (s : State) (p : Proposal) : (s.commit p).params = s.params := rfl

/-- A flag write is one bit of F and a cleared low nibble, bit by bit (R17). -/
theorem setFlagByte_bit (k : Flag) (b : Bool) (f : Byte) (i : Nat) :
    (setFlagByte k b f).getLsbD i =
      (decide (4 ≤ i ∧ i < 8) && if i = flagIndex k then b else f.getLsbD i) := by
  by_cases hi : i < 8
  · revert f
    interval_cases i <;> cases k <;> cases b <;> decide
  · rw [BitVec.getLsbD_of_ge _ _ (by omega)]
    simp [hi]

/-- A commit of all four flags determines F (R109, R14). -/
theorem commitByte_all (z n h c : Bool) (f : Byte) :
    commitByte (proposeAll z n h c) f = flagByte z n h c := by
  revert f
  cases z <;> cases n <;> cases h <;> cases c <;> decide

/-- A commit of Z, N and H keeps C (R109, R211). -/
theorem commitByte_znh (z n h : Bool) (f : Byte) :
    commitByte (proposeZNH z n h) f = flagByte z n h (f.getLsbD 4) := by
  revert f
  cases z <;> cases n <;> cases h <;> decide

/-- A commit of nothing does not write F (R109). -/
@[simp] theorem State.commit_noFlags (s : State) : s.commit noFlags = s := rfl

@[simp] theorem verify_none : verify tagsNone noFlags = true := rfl
@[simp] theorem verify_add (o : AluOut) : verify tagsAdd (flagsAdd o) = true := rfl
@[simp] theorem verify_sub (o : AluOut) : verify tagsSub (flagsSub o) = true := rfl
@[simp] theorem verify_and (r : Byte) : verify tagsAnd (flagsAnd r) = true := rfl
@[simp] theorem verify_or (r : Byte) : verify tagsOr (flagsOr r) = true := rfl
@[simp] theorem verify_inc (o : AluOut) : verify tagsInc (flagsInc o) = true := rfl
@[simp] theorem verify_dec (o : AluOut) : verify tagsDec (flagsDec o) = true := rfl
@[simp] theorem verify_bit (v : Byte) (b : BitVec 3) : verify tagsBit (flagsBit v b) = true := rfl
@[simp] theorem verify_rot (o : ShiftOut) : verify tagsRot (flagsRot o) = true := rfl
@[simp] theorem verify_rotA (o : ShiftOut) : verify tagsRotA (flagsRotA o) = true := rfl
@[simp] theorem verify_popAf : verify tagsAll noFlags = false := rfl

/-- Where PC goes (R110): the redirect target, or the length further on. -/
theorem State.advance_eq (s : State) (n : Nat) (r : Option Word) :
    s.advance n r = s.setPc (r.getD (s.pc + BitVec.ofNat 16 n)) := by
  cases r <;> rfl

/-- FLAG-COMMIT and ADVANCE, when the proposal fits the tags (R108 to R110). -/
theorem complete_fits {d : Descriptor} {p : Proposal} (h : verify d.tags p = true) (r : Option Word)
    (s : State) :
    complete d p r s =
      .next { s with f := commitByte p s.f, pc := r.getD (s.pc + BitVec.ofNat 16 d.length) } := by
  simp only [complete, h, if_true, State.advance_eq]
  rfl

/-- FLAG-COMMIT, when it does not: the handler's writes stay and the latch is set (R108, R324). -/
theorem complete_violates {d : Descriptor} {p : Proposal} (h : verify d.tags p = false) (r : Option Word)
    (s : State) : complete d p r s = .next (s.latch .flagContractViolation) := by
  simp [complete, h, takeFault]

/-- Everything the last stages can do: the next state is the advanced one or the latched one. -/
theorem complete_cases {d : Descriptor} {p : Proposal} {r : Option Word} {s t : State}
    (h : complete d p r s = .next t) :
    (verify d.tags p = true ∧
      t = { s with f := commitByte p s.f, pc := r.getD (s.pc + BitVec.ofNat 16 d.length) }) ∨
    (verify d.tags p = false ∧ t = s.latch .flagContractViolation) := by
  cases hv : verify d.tags p with
  | true =>
    rw [complete_fits hv] at h
    exact .inl ⟨rfl, by injection h with h; exact h.symm⟩
  | false =>
    rw [complete_violates hv] at h
    exact .inr ⟨rfl, by injection h with h; exact h.symm⟩

/-- Taking a fault sets the latch and changes nothing else (R328). -/
theorem takeFault_eq (f : FaultName) (s : State) : takeFault f s = .next { s with fault := some f } := rfl

/-! ### Between two steps, and FETCH -/

/-- The display subsystem's writes change M alone (R58). -/
theorem foldl_displayWrite_eq (ws : List DisplayWrite) (s : State) :
    ws.foldl displayWrite s = { s with mem := (ws.foldl displayWrite s).mem } := by
  induction ws generalizing s with
  | nil => rfl
  | cons w ws ih =>
    rw [List.foldl_cons, ih]
    rfl

/-- The display subsystem's writes keep the store's canonical form. -/
theorem foldl_displayWrite_wf (ws : List DisplayWrite) (s : State) (h : s.mem.wf = true) :
    (ws.foldl displayWrite s).mem.wf = true := by
  induction ws generalizing s with
  | nil => exact h
  | cons w ws ih =>
    have := w.offset.isLt
    exact ih _ (Memory.write_wf _ (by omega) h)

/-- The display subsystem's turn changes M and its own queue alone (R58). -/
theorem displayTurn_eq (s : State) :
    displayTurn s = { s with mem := (displayTurn s).mem, display := s.display.tail } := by
  unfold displayTurn
  split
  next h =>
    have : s.display.tail = s.display := by rw [h]; rfl
    rw [this]
  next ws q h =>
    rw [foldl_displayWrite_eq]
    simp [h]

/-- The display subsystem's turn keeps the store's canonical form. -/
theorem displayTurn_wf (s : State) (h : s.mem.wf = true) : (displayTurn s).mem.wf = true := by
  unfold displayTurn
  split
  · exact h
  · exact foldl_displayWrite_wf _ _ h

/-- Reading bytes through the bus changes nothing but the two output streams (R55, R103). -/
theorem fetchBytes_eq (n : Nat) (a : Word) (s : State) :
    (fetchBytes n a s).2 =
      { s with susp := (fetchBytes n a s).2.susp, port := (fetchBytes n a s).2.port } := by
  induction n generalizing a s with
  | zero => rfl
  | succ n ih =>
    simp only [fetchBytes]
    rw [ih, State.memRead_snd, State.afterRead_eq]

/-- As many bytes are fetched as are asked for. -/
theorem fetchBytes_length (n : Nat) (a : Word) (s : State) : (fetchBytes n a s).1.length = n := by
  induction n generalizing a s with
  | zero => rfl
  | succ n ih => simp [fetchBytes, ih]

/-- FETCH and DECODE change nothing but the two output streams (R86, R103). -/
theorem fetch_eq (s : State) :
    (fetch s).2 = { s with susp := (fetch s).2.susp, port := (fetch s).2.port } := by
  simp only [fetch, fetchInstr]
  rw [fetchBytes_eq, State.memRead_snd, State.afterRead_eq]

end Sys2Proof.Machine
end

