-- ==== Sys2Proof/Laws/Exec.lean ====
section
/-!
SUPPORT. The inversion lemma of exec: an instruction either ends in the fault of its table entry, or
completes with a proposal that fits its tags, from a state in which only its own registers and cells
have changed. What every instruction keeps follows from `exec_shape` without unfolding a meaning again.
-/

-- Many small theorems in one file: elaborated one after another, so that they do not each hold a thread.
set_option Elab.async false

namespace Sys2Proof.Machine

/-- What the operations of a handler may have done when DISPATCH ends (R20 to R29): only the instruction's
registers, stack pointer and cells have changed, and the streams have grown. -/
structure Frame (i : Instr) (s x : State) : Prop where
  fault : x.fault = s.fault
  pc : x.pc = s.pc
  f : x.f = s.f
  wf : s.mem.wf = true → x.mem.wf = true
  nostore : storesOf s i = [] → x.mem = s.mem
  store : ∀ k : Nat, k ∉ (storesOf s i).map cellOf → x.mem.read k = s.mem.read k
  regs : ∀ r : Reg8, r ∉ regsOf i → x.get8 r = s.get8 r
  sp : writesSp i = false → x.sp = s.sp
  params : x.params = s.params
  display : x.display = s.display
  susp : s.susp <+: x.susp
  port : s.port <+: x.port

/-- The instruction reaches FLAG-COMMIT and fits its contract there. -/
def Completes (i : Instr) (s : State) : Prop :=
  ∃ p r x, exec i s = complete (rom i) p r x ∧ verify (rom i).tags p = true ∧ faultOf i = none ∧
    (mayRedirect i = false → r = none) ∧ (p = noFlags ∨ Reg8.f ∈ regsOf i) ∧ Frame i s x

/-- The instruction ends in the fault of its table entry, and has done nothing else. -/
def Faults (i : Instr) (s : State) : Prop := ∃ f, exec i s = takeFault f s ∧ faultOf i = some f

theorem Completes.mk' {i : Instr} {s : State} (p : Proposal) (r : Option Word) (x : State)
    (h : exec i s = complete (rom i) p r x) (hv : verify (rom i).tags p = true) (hf : faultOf i = none)
    (hr : mayRedirect i = false → r = none) (hp : p = noFlags ∨ Reg8.f ∈ regsOf i)
    (fr : Frame i s x) : Completes i s := ⟨p, r, x, h, hv, hf, hr, hp, fr⟩

theorem State.afterRead_susp_prefix (s : State) (a : Word) : s.susp <+: (s.afterRead a).susp := by
  unfold State.afterRead
  split
  · split <;> simp
  · simp
  · simp

theorem State.afterRead_port_prefix (s : State) (a : Word) : s.port <+: (s.afterRead a).port := by
  unfold State.afterRead
  split
  · split <;> simp
  · simp
  · simp

theorem State.memWrite_susp_prefix (s : State) (a : Word) (v : Byte) : s.susp <+: (s.memWrite a v).susp := by
  unfold State.memWrite
  split <;> simp

theorem State.memWrite_port_prefix (s : State) (a : Word) (v : Byte) : s.port <+: (s.memWrite a v).port := by
  unfold State.memWrite
  split <;> simp

theorem Frame.same {i : Instr} {s : State} : Frame i s s := by constructor <;> simp

theorem Frame.read {i : Instr} {s : State} (a : Word) : Frame i s (s.afterRead a) := by
  constructor <;> simp [State.afterRead_susp_prefix, State.afterRead_port_prefix]

theorem Frame.opnd {i : Instr} {s : State} (x : Opnd8) : Frame i s (s.afterOpnd x) := by
  cases x
  · exact Frame.same
  · exact Frame.read _

theorem Frame.set8 {i : Instr} {s x : State} (h : Frame i s x) (r : Reg8) (hr : r ∈ regsOf i) (hf : r ≠ .f) (v : Byte) : Frame i s (x.set8 r v) := by
  constructor
  case f => rw [← h.f]; cases r <;> first | rfl | exact absurd rfl hf
  case regs => intro q hq; rw [State.get8_set8_other _ _ (by rintro rfl; exact hq hr)]; exact h.regs q hq
  case fault => simpa using h.fault
  case pc => simpa using h.pc
  case wf => simpa using h.wf
  case nostore => simpa using h.nostore
  case store => simpa using h.store
  case sp => simpa using h.sp
  case params => simpa using h.params
  case display => simpa using h.display
  case susp => simpa using h.susp
  case port => simpa using h.port

theorem Frame.setSp {i : Instr} {s x : State} (h : Frame i s x) (hw : writesSp i = true) (v : Word) : Frame i s (x.setSp v) := by
  constructor
  case sp => simp [hw]
  case f => simpa using h.f
  case regs => simpa using h.regs
  case fault => simpa using h.fault
  case pc => simpa using h.pc
  case wf => simpa using h.wf
  case nostore => simpa using h.nostore
  case store => simpa using h.store
  case params => simpa using h.params
  case display => simpa using h.display
  case susp => simpa using h.susp
  case port => simpa using h.port

theorem Frame.write {i : Instr} {s x : State} (h : Frame i s x) (a : Word) (ha : a ∈ storesOf s i) (v : Byte) : Frame i s (x.memWrite a v) := by
  constructor
  case wf => intro hw; exact State.memWrite_wf _ _ _ (h.wf hw)
  case nostore => intro h0; rw [h0] at ha; cases ha
  case store =>
    intro k hk
    rw [State.memWrite_cell_other, h.store k hk]
    rintro rfl; exact hk (List.mem_map_of_mem ha)
  case sp => simpa using h.sp
  case f => simpa using h.f
  case regs => simpa using h.regs
  case fault => simpa using h.fault
  case pc => simpa using h.pc
  case params => simpa using h.params
  case display => simpa using h.display
  case susp => exact h.susp.trans (State.memWrite_susp_prefix _ _ _)
  case port => exact h.port.trans (State.memWrite_port_prefix _ _ _)

theorem Frame.read2 {i : Instr} {s x : State} (h : Frame i s x) (a : Word) : Frame i s (x.afterRead a) := by
  constructor
  case sp => simpa using h.sp
  case f => simpa using h.f
  case regs => simpa using h.regs
  case fault => simpa using h.fault
  case pc => simpa using h.pc
  case wf => simpa using h.wf
  case nostore => simpa using h.nostore
  case store => simpa using h.store
  case params => simpa using h.params
  case display => simpa using h.display
  case susp => exact h.susp.trans (State.afterRead_susp_prefix _ _)
  case port => exact h.port.trans (State.afterRead_port_prefix _ _)

theorem gregReg_ne_f (r : GReg) : gregReg r ≠ .f := by cases r <;> simp [gregReg]

theorem Frame.write8 {i : Instr} {s x : State} (h : Frame i s x) (hx : ∀ p, x.get16 p = s.get16 p) (o : Opnd8) (hr : ∀ r ∈ opndRegs o, r ∈ regsOf i) (hs : ∀ a ∈ opndStore s o, a ∈ storesOf s i) (v : Byte) : Frame i s (x.write8 o v) := by
  cases o with
  | reg r => exact h.set8 _ (hr _ (by simp [opndRegs])) (gregReg_ne_f r) v
  | hlInd => exact h.write _ (by rw [hx]; exact hs _ (by simp [opndStore])) v

theorem Frame.setHl {i : Instr} {s x : State} (h : Frame i s x) (h1 : Reg8.h ∈ regsOf i) (h2 : Reg8.l ∈ regsOf i) (w : Word) : Frame i s (x.set16 .hl w) :=
  (h.set8 .h h1 (by simp) _).set8 .l h2 (by simp) _

theorem Frame.setRp {i : Instr} {s x : State} (h : Frame i s x) (p : Rp) (hr : ∀ r ∈ rpRegs p, r ∈ regsOf i) (hw : p = .sp → writesSp i = true) (w : Word) : Frame i s (x.set16 (rpPair p) w) := by
  cases p
  case sp => exact h.setSp (hw rfl) _
  case bc => exact (h.set8 .b (hr _ (by simp [rpRegs])) (by simp) _).set8 .c (hr _ (by simp [rpRegs])) (by simp) _
  case de => exact (h.set8 .d (hr _ (by simp [rpRegs])) (by simp) _).set8 .e (hr _ (by simp [rpRegs])) (by simp) _
  case hl => exact h.setHl (hr _ (by simp [rpRegs])) (hr _ (by simp [rpRegs])) _

theorem Frame.push {i : Instr} {s : State} (hw : writesSp i = true) (ha : storesOf s i = pushStore s) (w : Word) : Frame i s (s.push16 w) := by
  exact ((Frame.same.write _ (by rw [ha]; simp [pushStore]) _).write _ (by rw [ha]; simp [pushStore]) _).setSp hw _

theorem Frame.pop {i : Instr} {s : State} (hw : writesSp i = true) : Frame i s s.pop16.2 :=
  ((Frame.read _).read2 _).setSp hw _

@[simp] theorem State.afterOpnd_get16 (s : State) (x : Opnd8) (p : Pair) : (s.afterOpnd x).get16 p = s.get16 p := by
  cases x
  · rfl
  · exact State.afterRead_get16 _ _ _

/-- What exec can do, for every instruction but the escape row (which is the prefixed entry it selects) and
POP AF (the one form whose contract does not hold). -/
theorem exec_shape (i : Instr) (s : State) (he : ∀ op, i ≠ .escape op) (hp : i ≠ .pop .af) :
    Completes i s ∨ Faults i s := by
  cases i
  case escape op => exact absurd rfl (he op)
  case pop p =>
    cases p
    case af => exact absurd rfl hp
    case bc => exact .inl (.mk' noFlags _ _ rfl rfl rfl (by simp) (.inl rfl) ((Frame.pop rfl).setRp .bc (by simp [regsOf, rp2Regs, rpRegs]) (by simp) _))
    case de => exact .inl (.mk' noFlags _ _ rfl rfl rfl (by simp) (.inl rfl) ((Frame.pop rfl).setRp .de (by simp [regsOf, rp2Regs, rpRegs]) (by simp) _))
    case hl => exact .inl (.mk' noFlags _ _ rfl rfl rfl (by simp) (.inl rfl) ((Frame.pop rfl).setRp .hl (by simp [regsOf, rp2Regs, rpRegs]) (by simp) _))
  case callCc cc a =>
    by_cases h : s.cond cc = true
    · exact .inl (.mk' noFlags _ _ (by simp only [exec, execCallCc, h]; rfl) rfl rfl (by simp [mayRedirect]) (.inl rfl) (Frame.push rfl (by simp [storesOf, h]) _))
    · exact .inl (.mk' noFlags none s (by simp only [exec, execCallCc, h]; rfl) rfl rfl (by simp) (.inl rfl) Frame.same)
  case nop => exact .inl (.mk' noFlags _ _ rfl rfl rfl (by simp) (.inl rfl) Frame.same)
  case di => exact .inl (.mk' noFlags _ _ rfl rfl rfl (by simp) (.inl rfl) Frame.same)
  case jp => exact .inl (.mk' noFlags _ _ rfl rfl rfl (by simp [mayRedirect]) (.inl rfl) Frame.same)
  case jr => exact .inl (.mk' noFlags _ _ rfl rfl rfl (by simp [mayRedirect]) (.inl rfl) Frame.same)
  case jrCc => exact .inl (.mk' noFlags _ _ rfl rfl rfl (by simp [mayRedirect]) (.inl rfl) Frame.same)
  case ldRR => exact .inl (.mk' noFlags _ _ rfl rfl rfl (by simp) (.inl rfl) (Frame.same.set8 _ (by simp [regsOf]) (gregReg_ne_f _) _))
  case ldRN => exact .inl (.mk' noFlags _ _ rfl rfl rfl (by simp) (.inl rfl) (Frame.same.set8 _ (by simp [regsOf]) (gregReg_ne_f _) _))
  case ldRHl => exact .inl (.mk' noFlags _ _ rfl rfl rfl (by simp) (.inl rfl) ((Frame.read _).set8 _ (by simp [regsOf]) (gregReg_ne_f _) _))
  case ldHlR => exact .inl (.mk' noFlags _ _ rfl rfl rfl (by simp) (.inl rfl) (Frame.same.write _ (by simp [storesOf]) _))
  case ldHlN => exact .inl (.mk' noFlags _ _ rfl rfl rfl (by simp) (.inl rfl) (Frame.same.write _ (by simp [storesOf]) _))
  case ldBcA => exact .inl (.mk' noFlags _ _ rfl rfl rfl (by simp) (.inl rfl) (Frame.same.write _ (by simp [storesOf]) _))
  case ldDeA => exact .inl (.mk' noFlags _ _ rfl rfl rfl (by simp) (.inl rfl) (Frame.same.write _ (by simp [storesOf]) _))
  case ldA16A => exact .inl (.mk' noFlags _ _ rfl rfl rfl (by simp) (.inl rfl) (Frame.same.write _ (by simp [storesOf]) _))
  case ldhA8A => exact .inl (.mk' noFlags _ _ rfl rfl rfl (by simp) (.inl rfl) (Frame.same.write _ (by simp [storesOf]) _))
  case ldABc => exact .inl (.mk' noFlags _ _ rfl rfl rfl (by simp) (.inl rfl) ((Frame.read _).set8 _ (by simp [regsOf]) (by simp) _))
  case ldADe => exact .inl (.mk' noFlags _ _ rfl rfl rfl (by simp) (.inl rfl) ((Frame.read _).set8 _ (by simp [regsOf]) (by simp) _))
  case ldAA16 => exact .inl (.mk' noFlags _ _ rfl rfl rfl (by simp) (.inl rfl) ((Frame.read _).set8 _ (by simp [regsOf]) (by simp) _))
  case ldhAA8 => exact .inl (.mk' noFlags _ _ rfl rfl rfl (by simp) (.inl rfl) ((Frame.read _).set8 _ (by simp [regsOf]) (by simp) _))
  case ldAHli => exact .inl (.mk' noFlags _ _ rfl rfl rfl (by simp) (.inl rfl) (((Frame.read _).set8 _ (by simp [regsOf]) (by simp) _).setHl (by simp [regsOf]) (by simp [regsOf]) _))
  case ldAHld => exact .inl (.mk' noFlags _ _ rfl rfl rfl (by simp) (.inl rfl) (((Frame.read _).set8 _ (by simp [regsOf]) (by simp) _).setHl (by simp [regsOf]) (by simp [regsOf]) _))
  case ldHliA => exact .inl (.mk' noFlags _ _ rfl rfl rfl (by simp) (.inl rfl) ((Frame.same.write _ (by simp [storesOf]) _).setHl (by simp [regsOf]) (by simp [regsOf]) _))
  case ldHldA => exact .inl (.mk' noFlags _ _ rfl rfl rfl (by simp) (.inl rfl) ((Frame.same.write _ (by simp [storesOf]) _).setHl (by simp [regsOf]) (by simp [regsOf]) _))
  case ldRrN p n => exact .inl (.mk' noFlags _ _ rfl rfl rfl (by simp) (.inl rfl) (Frame.same.setRp p (by simp [regsOf]) (by simp [writesSp]) _))
  case incRr p => exact .inl (.mk' noFlags _ _ rfl rfl rfl (by simp) (.inl rfl) (Frame.same.setRp p (by simp [regsOf]) (by simp [writesSp]) _))
  case decRr p => exact .inl (.mk' noFlags _ _ rfl rfl rfl (by simp) (.inl rfl) (Frame.same.setRp p (by simp [regsOf]) (by simp [writesSp]) _))
  case ldSpHl => exact .inl (.mk' noFlags _ _ rfl rfl rfl (by simp) (.inl rfl) (Frame.same.setSp rfl _))
  case cp x => exact .inl (.mk' (flagsSub _) none _ rfl (verify_sub _) rfl (by simp) (.inr (by simp [regsOf])) (Frame.opnd x))
  case cpN x => exact .inl (.mk' (flagsSub _) none _ rfl (verify_sub _) rfl (by simp) (.inr (by simp [regsOf])) Frame.same)
  case bit b x => exact .inl (.mk' (flagsBit _ _) none _ rfl (verify_bit _ _) rfl (by simp) (.inr (by simp [regsOf])) (Frame.opnd x))
  case rst => exact .inl (.mk' noFlags _ _ rfl rfl rfl (by simp [mayRedirect]) (.inl rfl) (Frame.push rfl rfl _))
  case call => exact .inl (.mk' noFlags _ _ rfl rfl rfl (by simp [mayRedirect]) (.inl rfl) (Frame.push rfl rfl _))
  case push => exact .inl (.mk' noFlags _ _ rfl rfl rfl (by simp) (.inl rfl) (Frame.push rfl rfl _))
  case ret => exact .inl (.mk' noFlags _ _ rfl rfl rfl (by simp [mayRedirect]) (.inl rfl) (Frame.pop rfl))
  case inc8 x => exact .inl (.mk' (flagsInc _) none _ rfl (verify_inc _) rfl (by simp) (.inr (by simp [regsOf])) ((Frame.opnd x).write8 (State.afterOpnd_get16 s x) x (fun r hr => by simp [regsOf, hr]) (by simp [storesOf]) _))
  case dec8 x => exact .inl (.mk' (flagsDec _) none _ rfl (verify_dec _) rfl (by simp) (.inr (by simp [regsOf])) ((Frame.opnd x).write8 (State.afterOpnd_get16 s x) x (fun r hr => by simp [regsOf, hr]) (by simp [storesOf]) _))
  case rl x => exact .inl (.mk' (flagsRot _) none _ rfl (verify_rot _) rfl (by simp) (.inr (by simp [regsOf])) ((Frame.opnd x).write8 (State.afterOpnd_get16 s x) x (fun r hr => by simp [regsOf, hr]) (by simp [storesOf]) _))
  case rr x => exact .inl (.mk' (flagsRot _) none _ rfl (verify_rot _) rfl (by simp) (.inr (by simp [regsOf])) ((Frame.opnd x).write8 (State.afterOpnd_get16 s x) x (fun r hr => by simp [regsOf, hr]) (by simp [storesOf]) _))
  case srl x => exact .inl (.mk' (flagsRot _) none _ rfl (verify_rot _) rfl (by simp) (.inr (by simp [regsOf])) ((Frame.opnd x).write8 (State.afterOpnd_get16 s x) x (fun r hr => by simp [regsOf, hr]) (by simp [storesOf]) _))
  case rla => exact .inl (.mk' (flagsRotA _) none _ rfl (verify_rotA _) rfl (by simp) (.inr (by simp [regsOf])) (Frame.same.set8 _ (by simp [regsOf]) (by simp) _))
  case rra => exact .inl (.mk' (flagsRotA _) none _ rfl (verify_rotA _) rfl (by simp) (.inr (by simp [regsOf])) (Frame.same.set8 _ (by simp [regsOf]) (by simp) _))
  case sub x => exact .inl (.mk' (flagsSub _) none _ rfl (verify_sub _) rfl (by simp) (.inr (by simp [regsOf])) ((Frame.opnd x).set8 _ (by simp [regsOf]) (by simp) _))
  case add x => exact .inl (.mk' (flagsAdd _) none _ rfl (verify_add _) rfl (by simp) (.inr (by simp [regsOf])) ((Frame.opnd x).set8 _ (by simp [regsOf]) (by simp) _))
  case and x => exact .inl (.mk' (flagsAnd _) none _ rfl (verify_and _) rfl (by simp) (.inr (by simp [regsOf])) ((Frame.opnd x).set8 _ (by simp [regsOf]) (by simp) _))
  case or x => exact .inl (.mk' (flagsOr _) none _ rfl (verify_or _) rfl (by simp) (.inr (by simp [regsOf])) ((Frame.opnd x).set8 _ (by simp [regsOf]) (by simp) _))
  case xor x => exact .inl (.mk' (flagsOr _) none _ rfl (verify_or _) rfl (by simp) (.inr (by simp [regsOf])) ((Frame.opnd x).set8 _ (by simp [regsOf]) (by simp) _))
  case subN x => exact .inl (.mk' (flagsSub _) none _ rfl (verify_sub _) rfl (by simp) (.inr (by simp [regsOf])) (Frame.same.set8 _ (by simp [regsOf]) (by simp) _))
  case addN x => exact .inl (.mk' (flagsAdd _) none _ rfl (verify_add _) rfl (by simp) (.inr (by simp [regsOf])) (Frame.same.set8 _ (by simp [regsOf]) (by simp) _))
  case andN x => exact .inl (.mk' (flagsAnd _) none _ rfl (verify_and _) rfl (by simp) (.inr (by simp [regsOf])) (Frame.same.set8 _ (by simp [regsOf]) (by simp) _))
  case orN x => exact .inl (.mk' (flagsOr _) none _ rfl (verify_or _) rfl (by simp) (.inr (by simp [regsOf])) (Frame.same.set8 _ (by simp [regsOf]) (by simp) _))
  case xorN x => exact .inl (.mk' (flagsOr _) none _ rfl (verify_or _) rfl (by simp) (.inr (by simp [regsOf])) (Frame.same.set8 _ (by simp [regsOf]) (by simp) _))
  all_goals exact .inr ⟨_, rfl, rfl⟩

/-- The escape row is the prefixed entry it selects (R294). -/
theorem exec_escape (op : Byte) (s : State) : exec (.escape op) s = exec (cbInstr (decodeCb op)) s := by
  show runCb (decodeCb op) s = _
  cases decodeCb op <;> rfl

/-- POP AF writes and then latches (R255). -/
theorem exec_popAf (s : State) :
    exec (.pop .af) s = .next (State.latch { s.pop16.2 with a := hi8 s.pop16.1, f := lo8 s.pop16.1 }
      .flagContractViolation) := rfl

theorem cbInstr_not_escape (c : CbOp) (op : Byte) : cbInstr c ≠ .escape op := by cases c <;> simp [cbInstr]

theorem cbInstr_not_popAf (c : CbOp) : cbInstr c ≠ .pop .af := by cases c <;> simp [cbInstr]

@[simp] theorem faultOf_cbInstr (c : CbOp) : faultOf (cbInstr c) = cbFault c := by cases c <;> rfl

@[simp] theorem storesOf_cbInstr (s : State) (c : CbOp) : storesOf s (cbInstr c) = cbStores s c := by
  cases c <;> rfl

@[simp] theorem regsOf_cbInstr (c : CbOp) : regsOf (cbInstr c) = cbRegs c := by cases c <;> rfl

@[simp] theorem writesSp_cbInstr (c : CbOp) : writesSp (cbInstr c) = false := by cases c <;> rfl

end Sys2Proof.Machine
end

