-- ==== Sys2Proof/Laws/PerInstr.lean ====
section
/-!
SUPPORT. The per-instruction families named in LAWS.json: one lemma per constructor of Instr.
-/

set_option Elab.async false

namespace Sys2Proof.Laws.RomWellFormed

/-- The ROM supplies a non-empty mnemonic and a length of 1 to 3 bytes for the entry (R70, R80). -/
def Statement (i : Instr) : Prop :=
  (rom i).mnemonic ≠ "" ∧ 1 ≤ (rom i).length ∧ (rom i).length ≤ 3

theorem nop : Statement .nop := by simp [Statement, rom]
theorem di : Statement .di := by simp [Statement, rom]
theorem jp (a16 : Word) : Statement (.jp a16) := by simp [Statement, rom]
theorem jpCc (cc : Cond) (a16 : Word) : Statement (.jpCc cc a16) := by simp [Statement, rom]
theorem jpHl : Statement .jpHl := by simp [Statement, rom]
theorem jr (e8 : Byte) : Statement (.jr e8) := by simp [Statement, rom]
theorem jrCc (cc : Cond) (e8 : Byte) : Statement (.jrCc cc e8) := by simp [Statement, rom]
theorem ldRR (dst : GReg) (r : GReg) : Statement (.ldRR dst r) := by simp [Statement, rom]
theorem ldRN (dst : GReg) (n8 : Byte) : Statement (.ldRN dst n8) := by simp [Statement, rom]
theorem ldRHl (dst : GReg) : Statement (.ldRHl dst) := by simp [Statement, rom]
theorem ldHlR (r : GReg) : Statement (.ldHlR r) := by simp [Statement, rom]
theorem ldHlN (n8 : Byte) : Statement (.ldHlN n8) := by simp [Statement, rom]
theorem ldABc : Statement .ldABc := by simp [Statement, rom]
theorem ldADe : Statement .ldADe := by simp [Statement, rom]
theorem ldBcA : Statement .ldBcA := by simp [Statement, rom]
theorem ldDeA : Statement .ldDeA := by simp [Statement, rom]
theorem ldAHli : Statement .ldAHli := by simp [Statement, rom]
theorem ldAHld : Statement .ldAHld := by simp [Statement, rom]
theorem ldHliA : Statement .ldHliA := by simp [Statement, rom]
theorem ldHldA : Statement .ldHldA := by simp [Statement, rom]
theorem ldRrN (p : Rp) (n16 : Word) : Statement (.ldRrN p n16) := by simp [Statement, rom]
theorem ldSpHl : Statement .ldSpHl := by simp [Statement, rom]
theorem ldA16A (a16 : Word) : Statement (.ldA16A a16) := by simp [Statement, rom]
theorem ldAA16 (a16 : Word) : Statement (.ldAA16 a16) := by simp [Statement, rom]
theorem ldhA8A (a8 : Byte) : Statement (.ldhA8A a8) := by simp [Statement, rom]
theorem ldhAA8 (a8 : Byte) : Statement (.ldhAA8 a8) := by simp [Statement, rom]
theorem ldA16Sp (a16 : Word) : Statement (.ldA16Sp a16) := by simp [Statement, rom]
theorem ldHlSpE (e8 : Byte) : Statement (.ldHlSpE e8) := by simp [Statement, rom]
theorem ldCA : Statement .ldCA := by simp [Statement, rom]
theorem ldAC : Statement .ldAC := by simp [Statement, rom]
theorem cp (x : Opnd8) : Statement (.cp x) := by simp [Statement, rom]
theorem cpN (n8 : Byte) : Statement (.cpN n8) := by simp [Statement, rom]
theorem sub (x : Opnd8) : Statement (.sub x) := by simp [Statement, rom]
theorem subN (n8 : Byte) : Statement (.subN n8) := by simp [Statement, rom]
theorem add (x : Opnd8) : Statement (.add x) := by simp [Statement, rom]
theorem addN (n8 : Byte) : Statement (.addN n8) := by simp [Statement, rom]
theorem and (x : Opnd8) : Statement (.and x) := by simp [Statement, rom]
theorem andN (n8 : Byte) : Statement (.andN n8) := by simp [Statement, rom]
theorem or (x : Opnd8) : Statement (.or x) := by simp [Statement, rom]
theorem orN (n8 : Byte) : Statement (.orN n8) := by simp [Statement, rom]
theorem xor (x : Opnd8) : Statement (.xor x) := by simp [Statement, rom]
theorem xorN (n8 : Byte) : Statement (.xorN n8) := by simp [Statement, rom]
theorem inc8 (x : Opnd8) : Statement (.inc8 x) := by simp [Statement, rom]
theorem dec8 (x : Opnd8) : Statement (.dec8 x) := by simp [Statement, rom]
theorem incRr (p : Rp) : Statement (.incRr p) := by simp [Statement, rom]
theorem decRr (p : Rp) : Statement (.decRr p) := by simp [Statement, rom]
theorem bit (b : BitVec 3) (x : Opnd8) : Statement (.bit b x) := by simp [Statement, rom]
theorem rl (x : Opnd8) : Statement (.rl x) := by simp [Statement, rom]
theorem rla : Statement .rla := by simp [Statement, rom]
theorem rr (x : Opnd8) : Statement (.rr x) := by simp [Statement, rom]
theorem rra : Statement .rra := by simp [Statement, rom]
theorem srl (x : Opnd8) : Statement (.srl x) := by simp [Statement, rom]
theorem rst (t : BitVec 3) : Statement (.rst t) := by simp [Statement, rom]
theorem call (a16 : Word) : Statement (.call a16) := by simp [Statement, rom]
theorem callCc (cc : Cond) (a16 : Word) : Statement (.callCc cc a16) := by simp [Statement, rom]
theorem push (p : Rp2) : Statement (.push p) := by simp [Statement, rom]
theorem pop (p : Rp2) : Statement (.pop p) := by cases p <;> simp [Statement, rom]
theorem ret : Statement .ret := by simp [Statement, rom]
theorem rlca : Statement .rlca := by simp [Statement, rom]
theorem rrca : Statement .rrca := by simp [Statement, rom]
theorem stop (n8 : Byte) : Statement (.stop n8) := by simp [Statement, rom]
theorem daa : Statement .daa := by simp [Statement, rom]
theorem cpl : Statement .cpl := by simp [Statement, rom]
theorem scf : Statement .scf := by simp [Statement, rom]
theorem ccf : Statement .ccf := by simp [Statement, rom]
theorem halt : Statement .halt := by simp [Statement, rom]
theorem adc (x : Opnd8) : Statement (.adc x) := by simp [Statement, rom]
theorem adcN (n8 : Byte) : Statement (.adcN n8) := by simp [Statement, rom]
theorem sbc (x : Opnd8) : Statement (.sbc x) := by simp [Statement, rom]
theorem sbcN (n8 : Byte) : Statement (.sbcN n8) := by simp [Statement, rom]
theorem addHlRr (p : Rp) : Statement (.addHlRr p) := by simp [Statement, rom]
theorem addSpE (e8 : Byte) : Statement (.addSpE e8) := by simp [Statement, rom]
theorem retCc (cc : Cond) : Statement (.retCc cc) := by simp [Statement, rom]
theorem reti : Statement .reti := by simp [Statement, rom]
theorem ei : Statement .ei := by simp [Statement, rom]
theorem rlc (x : Opnd8) : Statement (.rlc x) := by simp [Statement, rom]
theorem rrc (x : Opnd8) : Statement (.rrc x) := by simp [Statement, rom]
theorem sla (x : Opnd8) : Statement (.sla x) := by simp [Statement, rom]
theorem sra (x : Opnd8) : Statement (.sra x) := by simp [Statement, rom]
theorem swap (x : Opnd8) : Statement (.swap x) := by simp [Statement, rom]
theorem res (b : BitVec 3) (x : Opnd8) : Statement (.res b x) := by simp [Statement, rom]
theorem set (b : BitVec 3) (x : Opnd8) : Statement (.set b x) := by simp [Statement, rom]
theorem noEntry (op : Byte) : Statement (.noEntry op) := by simp [Statement, rom]
theorem escape (op : Byte) : Statement (.escape op) := by simp [Statement, rom]

end Sys2Proof.Laws.RomWellFormed
end

