-- ==== Sys2Proof/Tests/Slice0.lean ====
section
/-!
SUPPORT. The model's own tests. Expected values are the spec's: the tables R81 to R83 for the words, the
Example line of the rule named in each one-step test. The witnesses at the end show, for every obligation
with hypotheses, a state and operands that meet them together, at the ends of their ranges.
-/

-- Many small theorems in one file: elaborated one after another, so that they do not each hold a thread.
set_option Elab.async false

namespace Sys2Proof.Tests

open Sys2Proof Sys2Proof.Machine

/-! ### Well-formedness: an ill-formed term for each check -/

theorem test_wf_refuses_a_noEntry_of_another_byte : (Instr.noEntry 0x00).wf = false := by decide

theorem test_wf_accepts_the_eleven_bytes : absentBytes.all (fun op => (Instr.noEntry op).wf) = true := by decide

theorem test_wf_refuses_the_escape_row : (Instr.escape 0x7C).wf = false := by decide

/-! ### Words: one of every constructor, written out from R81, R82 and R83 -/

/-- The bytes decode to that instruction and nothing is left over. -/
def reads (bs : List Byte) (i : Instr) : Bool :=
  match decode bs with
  | .ok (j, rest) => decide (j = i) && rest.isEmpty
  | .error _      => false

theorem test_words_control :
    reads [0x00] .nop = true ∧
    reads [0xF3] .di = true ∧
    reads [0xC3, 0x34, 0x12] (.jp 0x1234) = true ∧
    reads [0xD2, 0x00, 0x02] (.jpCc .nc 0x0200) = true ∧
    reads [0xE9] .jpHl = true ∧
    reads [0x18, 0xFB] (.jr 0xFB) = true ∧
    reads [0x28, 0x05] (.jrCc .z 0x05) = true := by
  decide

theorem test_words_load_registers :
    reads [0x78] (.ldRR .a .b) = true ∧
    reads [0x3E, 0x11] (.ldRN .a 0x11) = true ∧
    reads [0x7E] (.ldRHl .a) = true ∧
    reads [0x77] (.ldHlR .a) = true ∧
    reads [0x36, 0xA5] (.ldHlN 0xA5) = true ∧
    reads [0x11, 0x34, 0x12] (.ldRrN .de 0x1234) = true ∧
    reads [0x31, 0xFE, 0xFF] (.ldRrN .sp 0xFFFE) = true ∧
    reads [0xF9] .ldSpHl = true := by
  decide

theorem test_words_load_pairs :
    reads [0x0A] .ldABc = true ∧
    reads [0x1A] .ldADe = true ∧
    reads [0x02] .ldBcA = true ∧
    reads [0x12] .ldDeA = true ∧
    reads [0x2A] .ldAHli = true ∧
    reads [0x3A] .ldAHld = true ∧
    reads [0x22] .ldHliA = true ∧
    reads [0x32] .ldHldA = true := by
  decide

theorem test_words_load_addresses :
    reads [0xEA, 0x10, 0x99] (.ldA16A 0x9910) = true ∧
    reads [0xFA, 0x23, 0xC1] (.ldAA16 0xC123) = true ∧
    reads [0xE0, 0x47] (.ldhA8A 0x47) = true ∧
    reads [0xF0, 0x44] (.ldhAA8 0x44) = true ∧
    reads [0x08, 0x00, 0xC0] (.ldA16Sp 0xC000) = true ∧
    reads [0xF8, 0x02] (.ldHlSpE 0x02) = true ∧
    reads [0xE2] .ldCA = true ∧
    reads [0xF2] .ldAC = true := by
  decide

theorem test_words_alu :
    reads [0xB8] (.cp (.reg .b)) = true ∧
    reads [0xFE, 0x90] (.cpN 0x90) = true ∧
    reads [0x96] (.sub .hlInd) = true ∧
    reads [0xD6, 0x3E] (.subN 0x3E) = true ∧
    reads [0x82] (.add (.reg .d)) = true ∧
    reads [0xC6, 0xFF] (.addN 0xFF) = true ∧
    reads [0xA5] (.and (.reg .l)) = true ∧
    reads [0xE6, 0x38] (.andN 0x38) = true ∧
    reads [0xB1] (.or (.reg .c)) = true ∧
    reads [0xF6, 0x03] (.orN 0x03) = true ∧
    reads [0xAF] (.xor (.reg .a)) = true ∧
    reads [0xEE, 0x0F] (.xorN 0x0F) = true := by
  decide

theorem test_words_inc_dec :
    reads [0x34] (.inc8 .hlInd) = true ∧
    reads [0x1D] (.dec8 (.reg .e)) = true ∧
    reads [0x13] (.incRr .de) = true ∧
    reads [0x3B] (.decRr .sp) = true := by
  decide

theorem test_words_bit_rotate_shift :
    reads [0xCB, 0x7E] (.bit 7 .hlInd) = true ∧
    reads [0xCB, 0x11] (.rl (.reg .c)) = true ∧
    reads [0x17] .rla = true ∧
    reads [0xCB, 0x1A] (.rr (.reg .d)) = true ∧
    reads [0x1F] .rra = true ∧
    reads [0xCB, 0x3F] (.srl (.reg .a)) = true := by
  decide

theorem test_words_stack :
    reads [0xEF] (.rst 5) = true ∧
    reads [0xCD, 0x00, 0x20] (.call 0x2000) = true ∧
    reads [0xCC, 0x00, 0x20] (.callCc .z 0x2000) = true ∧
    reads [0xC5] (.push .bc) = true ∧
    reads [0xF1] (.pop .af) = true ∧
    reads [0xC9] .ret = true := by
  decide

theorem test_words_unhandled :
    reads [0x07] .rlca = true ∧
    reads [0x0F] .rrca = true ∧
    reads [0x10, 0x00] (.stop 0x00) = true ∧
    reads [0x27] .daa = true ∧
    reads [0x2F] .cpl = true ∧
    reads [0x37] .scf = true ∧
    reads [0x3F] .ccf = true ∧
    reads [0x76] .halt = true ∧
    reads [0x8E] (.adc .hlInd) = true ∧
    reads [0xCE, 0x01] (.adcN 0x01) = true ∧
    reads [0x98] (.sbc (.reg .b)) = true ∧
    reads [0xDE, 0x01] (.sbcN 0x01) = true ∧
    reads [0x39] (.addHlRr .sp) = true ∧
    reads [0xE8, 0xFF] (.addSpE 0xFF) = true ∧
    reads [0xD8] (.retCc .c) = true ∧
    reads [0xD9] .reti = true ∧
    reads [0xFB] .ei = true := by
  decide

theorem test_words_unhandled_prefixed :
    reads [0xCB, 0x06] (.rlc .hlInd) = true ∧
    reads [0xCB, 0x0F] (.rrc (.reg .a)) = true ∧
    reads [0xCB, 0x20] (.sla (.reg .b)) = true ∧
    reads [0xCB, 0x29] (.sra (.reg .c)) = true ∧
    reads [0xCB, 0x37] (.swap (.reg .a)) = true ∧
    reads [0xCB, 0x86] (.res 0 .hlInd) = true ∧
    reads [0xCB, 0xCB] (.set 1 (.reg .e)) = true := by
  decide

theorem test_words_no_entry : absentBytes.all (fun op => reads [op] (.noEntry op)) = true := by decide

theorem test_decode_refuses_a_list_that_ends_inside_an_instruction :
    (match decode [0xC3, 0x34] with | .error .truncated => true | _ => false) = true ∧
    (match decode [] with | .error .empty => true | _ => false) = true := by decide

/-- The escape row's own bytes in the encoder (R79), and what they decode to: the prefixed entry (R294). -/
theorem test_escape_row_decodes_to_the_prefixed_entry :
    encode (.escape 0x7C) = [0xCB, 0x7C] ∧ reads [0xCB, 0x7C] (.bit 7 (.reg .h)) = true := by decide

theorem test_table_words :
    decodeTableWord 8 0x78 = some (.ldRR .a .b) ∧ decodeTableWord 24 0x1234C3 = some (.jp 0x1234) ∧
    decodeTableWord 16 0xCB7C = some (.bit 7 (.reg .h)) ∧ decodeTableWord 16 0xFB18 = some (.jr 0xFB) := by
  decide

/-! ### One step of each implemented instruction -/

/-- The state with the bytes at 0x0150, PC there, and the cells given. -/
def given (bs : List Byte) (cells : List (Word × Byte)) (s : State) : State :=
  placeBytes bs 0x0150 (cells.foldl (fun s c => s.setCell c.1 c.2) { s with pc := 0x0150 })

/-- A step answers a next state that shows the value. -/
def shows {α : Type} [DecidableEq α] (s : State) (view : State → α) (v : α) : Bool :=
  match step s with
  | .next t => decide (view t = v)
  | _       => false

/-- R130. -/
theorem test_nop :
    shows (given [0x00] [] State.reset)
      (fun t => (t.pc, t.f)) (0x0151, 0x00) = true := by decide

/-- R131. -/
theorem test_di :
    shows (given [0xF3] [] { State.reset with f := 0xF0 })
      (fun t => (t.pc, t.f)) (0x0151, 0xF0) = true := by decide

/-- R135. -/
theorem test_jp :
    shows (given [0xC3, 0x00, 0x02] [] State.reset)
      (fun t => t.pc) 0x0200 = true := by decide

/-- R138. -/
theorem test_jpCc :
    shows (given [0xC2, 0x00, 0x02] [] State.reset)
      (fun t => (t.fault, t.pc)) (some .malformedOperand, 0x0150) = true := by decide

/-- R139. -/
theorem test_jpHl :
    shows (given [0xE9] [] State.reset)
      (fun t => (t.fault, t.pc)) (some .malformedOperand, 0x0150) = true := by decide

/-- R136. -/
theorem test_jr_backwards :
    shows (given [0x18, 0xFB] [] State.reset)
      (fun t => t.pc) 0x014B = true := by decide

/-- R137. -/
theorem test_jrCc_taken :
    shows (given [0x20, 0xFB] [] State.reset)
      (fun t => t.pc) 0x014B = true := by decide

/-- R137. -/
theorem test_jrCc_untaken :
    shows (given [0x20, 0xFB] [] { State.reset with f := 0x80 })
      (fun t => t.pc) 0x0152 = true := by decide

/-- R150. -/
theorem test_ldRR :
    shows (given [0x78] [] { State.reset with b := 0x12 })
      (fun t => (t.a, t.pc)) (0x12, 0x0151) = true := by decide

/-- R151. -/
theorem test_ldRN :
    shows (given [0x3E, 0x11] [] State.reset)
      (fun t => (t.a, t.pc)) (0x11, 0x0152) = true := by decide

/-- R163. -/
theorem test_ldRrN :
    shows (given [0x21, 0xFF, 0x9F] [] State.reset)
      (fun t => (t.h, t.l, t.pc)) (0x9F, 0xFF, 0x0153) = true := by decide

/-- R164. -/
theorem test_ldSpHl :
    shows (given [0xF9] [] { State.reset with h := 0xC1 })
      (fun t => (t.sp, t.pc)) (0xC100, 0x0151) = true := by decide

/-- R152. -/
theorem test_ldRHl :
    shows (given [0x7E] [(0xC010, 0x5A)] { State.reset with h := 0xC0, l := 0x10 })
      (fun t => t.a) 0x5A = true := by decide

/-- R153. -/
theorem test_ldHlR :
    shows (given [0x77] [] { State.reset with h := 0xC0, l := 0x10, a := 0x77 })
      (fun t => t.mem.read 0xC010) 0x77 = true := by decide

/-- R154. -/
theorem test_ldHlN :
    shows (given [0x36, 0xA5] [] { State.reset with h := 0xC0 })
      (fun t => (t.mem.read 0xC000, t.pc)) (0xA5, 0x0152) = true := by decide

/-- R159. -/
theorem test_ldAHli :
    shows (given [0x2A] [(0xC000, 0x3C)] { State.reset with h := 0xC0 })
      (fun t => (t.a, t.get16 .hl)) (0x3C, 0xC001) = true := by decide

/-- R160. -/
theorem test_ldAHld :
    shows (given [0x3A] [(0xC001, 0x99)] { State.reset with h := 0xC0, l := 0x01 })
      (fun t => (t.a, t.get16 .hl)) (0x99, 0xC000) = true := by decide

/-- R161. -/
theorem test_ldHliA :
    shows (given [0x22] [] { State.reset with h := 0x80, a := 0xF0 })
      (fun t => (t.mem.read 0x8000, t.get16 .hl)) (0xF0, 0x8001) = true := by decide

/-- R162. -/
theorem test_ldHldA :
    shows (given [0x32] [(0x9FFF, 0x55)] { State.reset with h := 0x9F, l := 0xFF })
      (fun t => (t.mem.read 0x9FFF, t.get16 .hl)) (0x00, 0x9FFE) = true := by decide

/-- R155. -/
theorem test_ldABc :
    shows (given [0x0A] [(0xC020, 0x42)] { State.reset with b := 0xC0, c := 0x20 })
      (fun t => t.a) 0x42 = true := by decide

/-- R156. -/
theorem test_ldADe :
    shows (given [0x1A] [(0x0104, 0xCE)] { State.reset with d := 0x01, e := 0x04 })
      (fun t => t.a) 0xCE = true := by decide

/-- R157. -/
theorem test_ldBcA :
    shows (given [0x02] [] { State.reset with b := 0xC0, c := 0x20, a := 0x42 })
      (fun t => t.mem.read 0xC020) 0x42 = true := by decide

/-- R158. -/
theorem test_ldDeA_through_the_echo :
    shows (given [0x12] [] { State.reset with d := 0xE0, e := 0x10, a := 0x33 })
      (fun t => (t.mem.read 0xC010, t.mem.read 0xE010)) (0x33, 0x00) = true := by decide

/-- R165. -/
theorem test_ldA16A :
    shows (given [0xEA, 0x10, 0x99] [] { State.reset with a := 0x19 })
      (fun t => (t.mem.read 0x9910, t.pc)) (0x19, 0x0153) = true := by decide

/-- R166. -/
theorem test_ldAA16 :
    shows (given [0xFA, 0x23, 0xC1] [(0xC123, 0x7E)] State.reset)
      (fun t => (t.a, t.pc)) (0x7E, 0x0153) = true := by decide

/-- R167. -/
theorem test_ldhA8A :
    shows (given [0xE0, 0x47] [] { State.reset with a := 0xFC })
      (fun t => (t.port, t.mem.read 0xFF47, t.pc)) ([.write 0xFF47 0xFC], 0xFC, 0x0152) = true := by decide

/-- R168. -/
theorem test_ldhAA8_scanline :
    shows (given [0xF0, 0x44] [(0xFF44, 0x12)] State.reset)
      (fun t => (t.a, t.port)) (0x90, []) = true := by decide

/-- R169. -/
theorem test_ldA16Sp :
    shows (given [0x08, 0x00, 0xC0] [] State.reset)
      (fun t => (t.fault, t.pc, t.sp, t.get16 .hl)) (some .malformedOperand, 0x0150, 0, 0) = true := by decide

/-- R170. -/
theorem test_ldHlSpE :
    shows (given [0xF8, 0x02] [] State.reset)
      (fun t => (t.fault, t.pc, t.sp, t.get16 .hl)) (some .malformedOperand, 0x0150, 0, 0) = true := by decide

/-- R171. -/
theorem test_ldCA :
    shows (given [0xE2] [] State.reset)
      (fun t => (t.fault, t.pc, t.sp, t.get16 .hl)) (some .malformedOperand, 0x0150, 0, 0) = true := by decide

/-- R172. -/
theorem test_ldAC :
    shows (given [0xF2] [] State.reset)
      (fun t => (t.fault, t.pc, t.sp, t.get16 .hl)) (some .malformedOperand, 0x0150, 0, 0) = true := by decide

/-- R193. -/
theorem test_cp :
    shows (given [0xB8] [] { State.reset with a := 0x11, b := 0x0F })
      (fun t => (t.a, t.f)) (0x11, 0x60) = true := by decide

/-- R195. -/
theorem test_cpN_borrow :
    shows (given [0xFE, 0x40] [] { State.reset with a := 0x3C })
      (fun t => (t.a, t.f)) (0x3C, 0x50) = true := by decide

/-- R196. -/
theorem test_sub :
    shows (given [0x90] [] { State.reset with a := 0x3E, b := 0x0F })
      (fun t => (t.a, t.f)) (0x2F, 0x60) = true := by decide

/-- R197. -/
theorem test_sub_hl :
    shows (given [0x96] [(0xC000, 0x40)] { State.reset with a := 0x3E, h := 0xC0 })
      (fun t => (t.a, t.f)) (0xFE, 0x50) = true := by decide

/-- R198. -/
theorem test_subN :
    shows (given [0xD6, 0x3E] [] { State.reset with a := 0x3E })
      (fun t => (t.a, t.f)) (0x00, 0xC0) = true := by decide

/-- R199. -/
theorem test_add :
    shows (given [0x80] [] { State.reset with a := 0x3A, b := 0xC6 })
      (fun t => (t.a, t.f)) (0x00, 0xB0) = true := by decide

/-- R200. -/
theorem test_add_hl :
    shows (given [0x86] [(0xC000, 0x12)] { State.reset with a := 0x3C, h := 0xC0, f := 0xF0 })
      (fun t => (t.a, t.f)) (0x4E, 0x00) = true := by decide

/-- R201. -/
theorem test_addN :
    shows (given [0xC6, 0xFF] [] { State.reset with a := 0x3C })
      (fun t => (t.a, t.f)) (0x3B, 0x30) = true := by decide

/-- R202. -/
theorem test_and :
    shows (given [0xA5] [] { State.reset with a := 0x5A, l := 0x3F })
      (fun t => (t.a, t.f)) (0x1A, 0x20) = true := by decide

/-- R204. -/
theorem test_andN :
    shows (given [0xE6, 0x38] [] { State.reset with a := 0x5A })
      (fun t => (t.a, t.f)) (0x18, 0x20) = true := by decide

/-- R205. -/
theorem test_or :
    shows (given [0xB1] [] { State.reset with a := 0x5A, c := 0x0F, f := 0xF0 })
      (fun t => (t.a, t.f)) (0x5F, 0x00) = true := by decide

/-- R207. -/
theorem test_orN :
    shows (given [0xF6, 0x03] [] { State.reset with a := 0x5A })
      (fun t => (t.a, t.f)) (0x5B, 0x00) = true := by decide

/-- R209. -/
theorem test_xor_hl :
    shows (given [0xAE] [(0xC000, 0x8A)] { State.reset with a := 0xFF, h := 0xC0 })
      (fun t => (t.a, t.f)) (0x75, 0x00) = true := by decide

/-- R210. -/
theorem test_xorN :
    shows (given [0xEE, 0x0F] [] { State.reset with a := 0xFF })
      (fun t => (t.a, t.f)) (0xF0, 0x00) = true := by decide

/-- R211. -/
theorem test_inc8_keeps_carry :
    shows (given [0x04] [] { State.reset with b := 0xFF, f := 0x10 })
      (fun t => (t.b, t.f)) (0x00, 0xB0) = true := by decide

/-- R212. -/
theorem test_inc8_hl :
    shows (given [0x34] [(0xC000, 0x0F)] { State.reset with h := 0xC0 })
      (fun t => (t.mem.read 0xC000, t.f)) (0x10, 0x20) = true := by decide

/-- R213. -/
theorem test_dec8 :
    shows (given [0x05] [] { State.reset with b := 0x01 })
      (fun t => (t.b, t.f)) (0x00, 0xC0) = true := by decide

/-- R214. -/
theorem test_dec8_hl_keeps_carry :
    shows (given [0x35] [(0xC000, 0x00)] { State.reset with h := 0xC0, f := 0x10 })
      (fun t => (t.mem.read 0xC000, t.f)) (0xFF, 0x70) = true := by decide

/-- R215. -/
theorem test_incRr :
    shows (given [0x13] [] { State.reset with e := 0xFF, f := 0xF0 })
      (fun t => (t.d, t.e, t.f)) (0x01, 0x00, 0xF0) = true := by decide

/-- R216. -/
theorem test_decRr :
    shows (given [0x0B] [] { State.reset with b := 0x01 })
      (fun t => (t.b, t.c, t.f)) (0x00, 0xFF, 0x00) = true := by decide

/-- R231. -/
theorem test_bit :
    shows (given [0xCB, 0x7E] [(0xC000, 0x80)] { State.reset with h := 0xC0 })
      (fun t => (t.f, t.mem.read 0xC000)) (0x20, 0x80) = true := by decide

/-- R232. -/
theorem test_rl :
    shows (given [0xCB, 0x11] [] { State.reset with c := 0x85 })
      (fun t => (t.c, t.f)) (0x0A, 0x10) = true := by decide

/-- R233. -/
theorem test_rl_hl :
    shows (given [0xCB, 0x16] [(0xC000, 0x80)] { State.reset with h := 0xC0 })
      (fun t => (t.mem.read 0xC000, t.f)) (0x00, 0x90) = true := by decide

/-- R234. -/
theorem test_rla :
    shows (given [0x17] [] { State.reset with a := 0x95, f := 0x10 })
      (fun t => (t.a, t.f)) (0x2B, 0x10) = true := by decide

/-- R235. -/
theorem test_rr_takes_the_carry_in :
    shows (given [0xCB, 0x1A] [] { State.reset with d := 0x8A, f := 0x10 })
      (fun t => (t.d, t.f)) (0xC5, 0x00) = true := by decide

/-- R236. -/
theorem test_rr_hl :
    shows (given [0xCB, 0x1E] [(0xC000, 0x01)] { State.reset with h := 0xC0 })
      (fun t => (t.mem.read 0xC000, t.f)) (0x00, 0x90) = true := by decide

/-- R237. -/
theorem test_rra :
    shows (given [0x1F] [] { State.reset with a := 0x81 })
      (fun t => (t.a, t.f)) (0x40, 0x10) = true := by decide

/-- R238. -/
theorem test_srl :
    shows (given [0xCB, 0x3F] [] { State.reset with a := 0x8F })
      (fun t => (t.a, t.f)) (0x47, 0x10) = true := by decide

/-- R239. -/
theorem test_srl_hl :
    shows (given [0xCB, 0x3E] [(0xC000, 0xFF)] { State.reset with h := 0xC0 })
      (fun t => (t.mem.read 0xC000, t.f)) (0x7F, 0x10) = true := by decide

/-- R250. -/
theorem test_rst :
    shows (given [0xEF] [] { State.reset with sp := 0xFFFE })
      (fun t => (t.mem.read 0xFFFD, t.mem.read 0xFFFC, t.sp, t.pc)) (0x01, 0x50, 0xFFFC, 0x0028) = true := by decide

/-- R251. -/
theorem test_call :
    shows (given [0xCD, 0x00, 0x20] [] { State.reset with sp := 0xFFFE })
      (fun t => (t.mem.read 0xFFFD, t.mem.read 0xFFFC, t.sp, t.pc)) (0x01, 0x53, 0xFFFC, 0x2000) = true := by decide

/-- R252. -/
theorem test_callCc_taken :
    shows (given [0xCC, 0x00, 0x20] [] { State.reset with sp := 0xFFFE, f := 0x80 })
      (fun t => (t.mem.read 0xFFFD, t.mem.read 0xFFFC, t.sp, t.pc)) (0x01, 0x53, 0xFFFC, 0x2000) = true := by decide

/-- R252. -/
theorem test_callCc_untaken :
    shows (given [0xC4, 0x00, 0x20] [] { State.reset with sp := 0xFFFE, f := 0x80 })
      (fun t => (t.mem.read 0xFFFD, t.mem.read 0xFFFC, t.sp, t.pc)) (0x00, 0x00, 0xFFFE, 0x0153) = true := by decide

/-- R253. -/
theorem test_push :
    shows (given [0xC5] [] { State.reset with b := 0x12, c := 0x34, sp := 0xFFFE })
      (fun t => (t.mem.read 0xFFFD, t.mem.read 0xFFFC, t.sp, t.pc)) (0x12, 0x34, 0xFFFC, 0x0151) = true := by decide

/-- R254. -/
theorem test_pop :
    shows (given [0xD1] [(0xFFFC, 0x34), (0xFFFD, 0x12)] { State.reset with sp := 0xFFFC })
      (fun t => (t.d, t.e, t.sp)) (0x12, 0x34, 0xFFFE) = true := by decide

/-- R255. -/
theorem test_popAf :
    shows (given [0xF1] [(0xFFFC, 0xFF), (0xFFFD, 0x12)] { State.reset with sp := 0xFFFC })
      (fun t => (t.a, t.f, t.sp, t.pc, t.fault)) (0x12, 0xFF, 0xFFFE, 0x0150, some .flagContractViolation) = true := by decide

/-- R256. -/
theorem test_ret :
    shows (given [0xC9] [(0xFFFC, 0x53), (0xFFFD, 0x01)] { State.reset with sp := 0xFFFC })
      (fun t => (t.pc, t.sp)) (0x0153, 0xFFFE) = true := by decide

/-- R271 to R285, R293: the latch, and PC where it was. -/
theorem test_unhandled_entries_latch :
    shows (given [0x2F] [] State.reset) (fun t => (t.fault, t.a, t.pc))
      (some .unimplementedMnemonic, 0x00, 0x0150) = true ∧
    shows (given [0x8F] [] State.reset) (fun t => t.fault) (some .unimplementedMnemonic) = true ∧
    shows (given [0xCB, 0x37] [] State.reset) (fun t => t.fault) (some .unimplementedMnemonic) = true ∧
    shows (given [0xD3] [] State.reset) (fun t => t.fault) (some .unknownOpcode) = true := by decide

/-- `withFetchWord` places the word where the next step fetches it. -/
theorem test_withFetchWord :
    shows (State.reset.withFetchWord 24 0x1234C3) (fun t => t.pc) 0x1234 = true ∧
    shows (State.reset.withFetchWord 16 0xCB7C) (fun t => (t.pc, t.f)) (0x0102, 0xA0) = true := by decide

/-! ### Witnesses: the hypotheses of each obligation, met together -/

/-- A state with a latched fault. -/
def latched : State := { State.reset with fault := some .unknownOpcode }

/-- The display register block about which nothing is assumed. -/
def freeDevice : Params := { Params.standard with io := .free }

theorem witness_ReleasingResetGivesTheInvariant :
    { Params.standard with cartridgeSize := 0xE000 }.wf = true ∧
    { Launch.standard with f := 0xF0, pc := 0xFFFF, image := [(0, 1), (65535, 2)] }.wf = true := by decide

theorem witness_EveryStepKeepsTheInvariant :
    (given [0x05] [] { State.reset with f := 0xF0 }).Inv ∧
    shows (given [0x05] [] { State.reset with f := 0xF0 }) (fun t => t.fault) none = true := by decide

/-- The case in which the low nibble of F is free after the step: a fault is latched (R18). -/
theorem witness_EveryStepKeepsTheInvariant_latching :
    (given [0xF1] [(0xC000, 0xFF)] { State.reset with sp := 0xC000 }).Inv ∧
    shows (given [0xF1] [(0xC000, 0xFF)] { State.reset with sp := 0xC000 }) (fun t => (t.f, t.fault))
      (0xFF, some .flagContractViolation) = true := by decide

theorem witness_RegisterFileReadsBackWhatWasWritten : Reg8.f ≠ Reg8.a := by decide

theorem witness_FlagWriteSetsOneBitAndClearsTheLowNibble : Flag.c ≠ Flag.z := by decide

theorem witness_CommitWritesExactlyTheProposedFlags : proposeZNH false false false ≠ noFlags := by decide

theorem witness_VerifierCommitsOrLatches_fits (k : Flag) :
    slotFits (tagOf (rom (.inc8 .hlInd)).tags k) (slotOf (proposeZNH true false true) k) = true := by
  cases k <;> decide

theorem witness_VerifierCommitsOrLatches_mismatch :
    slotFits (tagOf (rom (.pop .af)).tags .c) (slotOf noFlags .c) = false := by decide

theorem witness_CanonicalStoresThatReadAlikeAreEqual :
    Memory.wf [(0, 1), (65535, 255)] = true := by decide

/-- Each clause at both ends of its range; the clauses that overlap (the two of the display range, read and
write) speak of different accesses. -/
theorem witness_BusFollowsTheRoutingTable :
    (0x0000#16).toNat ≤ 0xDFFF ∧ (0xDFFF#16).toNat ≤ 0xDFFF ∧
    (0xE000 ≤ (0xE000#16).toNat ∧ (0xFDFF#16).toNat ≤ 0xFDFF) ∧
    (0xFE00 ≤ (0xFE00#16).toNat ∧ (0xFEFF#16).toNat ≤ 0xFEFF) ∧
    (0xFF00 ≤ (0xFF00#16).toNat ∧ (0xFF4B#16).toNat ≤ 0xFF4B ∧ 0xFF43#16 ≠ 0xFF44 ∧ 0xFF45#16 ≠ 0xFF44) ∧
    (0xFF4C ≤ (0xFF4C#16).toNat ∧ (0xFF7F#16).toNat ≤ 0xFF7F) ∧
    0xFF80 ≤ (0xFF80#16).toNat ∧ 0xFF80 ≤ (0xFFFF#16).toNat := by decide

/-- What the ends of the ranges read in one state: the last byte below the echo, both ends of the echo, the
sprite range, the two display registers beside the scanline register, and the ends of the last two. -/
theorem witness_BusFollowsTheRoutingTable_values :
    (let s : State := { State.reset with mem :=
      [(0xC000, 1), (0xDDFF, 2), (0xDFFF, 3), (0xFE00, 4), (0xFEFF, 5), (0xFF00, 6), (0xFF44, 7), (0xFF4B, 8),
       (0xFF4C, 9), (0xFF7F, 10), (0xFF80, 11), (0xFFFF, 12)] }
    ([0xC000, 0xE000, 0xFDFF, 0xDFFF, 0xFE00, 0xFEFF, 0xFF00, 0xFF44, 0xFF4B, 0xFF4C, 0xFF7F, 0xFF80,
      0xFFFF] : List Word).map s.busByte) = [1, 1, 2, 3, 4, 5, 6, 0x90, 8, 9, 10, 11, 12] := by decide

theorem witness_EchoRangeIsAnAlias :
    State.reset.mem.wf = true ∧
    (0xE000 ≤ (0xE000#16).toNat ∧ (0xE000#16).toNat < 0xFE00) ∧
    (0xE000 ≤ (0xFDFF#16).toNat ∧ (0xFDFF#16).toNat < 0xFE00) ∧
    (0xE000 ≤ (0xE000 : Nat) ∧ (0xFDFF : Nat) ≤ 0xFDFF) := by decide

theorem witness_ScanlineReadsTheSentinelWhateverWasWritten : State.reset.mem.wf = true := by decide

theorem witness_DisplayWritesAreDelegatedAndMirrored_latch :
    State.reset.mem.wf = true ∧ State.reset.params.io = .latch ∧
    (0xFF00 ≤ (0xFF00#16).toNat ∧ (0xFF00#16).toNat ≤ 0xFF4B ∧ 0xFF00#16 ≠ 0xFF44) ∧
    (0xFF00 ≤ (0xFF4B#16).toNat ∧ (0xFF4B#16).toNat ≤ 0xFF4B ∧ 0xFF4B#16 ≠ 0xFF44) := by decide

theorem witness_DisplayWritesAreDelegatedAndMirrored_free :
    { State.reset with params := freeDevice }.mem.wf = true ∧
    { State.reset with params := freeDevice }.params.io = .free ∧
    (0xFF00 ≤ (0xFF45#16).toNat ∧ (0xFF45#16).toNat ≤ 0xFF4B ∧ 0xFF45#16 ≠ 0xFF44) := by decide

theorem witness_SuspiciousAccessIsOrdinaryPlusOneEvent :
    State.reset.mem.wf = true ∧
    (0xFF4C ≤ (0xFF4C#16).toNat ∧ (0xFF4C#16).toNat ≤ 0xFF7F) ∧
    (0xFF4C ≤ (0xFF7F#16).toNat ∧ (0xFF7F#16).toNat ≤ 0xFF7F) := by decide

/-- The two reads of a pop, the second of them across the top of the address space. -/
theorem witness_PopReturnsTheWordPushed_reads :
    (let s : State := { State.reset with sp := 0xFFFF, mem := [(0, 0x12), (65535, 0x34)] }
    s.memRead s.sp = (0x34, s) ∧ s.memRead (s.sp + 1) = (0x12, s)) := ⟨rfl, rfl⟩

/-- SP at the ends of the ranges that hold what is written: 0xFF00 and 0x0001 below, 0xFF4E above. -/
theorem witness_PopReturnsTheWordPushed_stores :
    State.reset.mem.wf = true ∧
    (storesPlainly (0xFF00 - 1) ∧ storesPlainly (0xFF00 - 2)) ∧
    (storesPlainly (0x0001 - 1) ∧ storesPlainly (0x0001 - 2)) ∧
    (storesPlainly (0xFF4E - 1) ∧ storesPlainly (0xFF4E - 2)) := by
  unfold storesPlainly; decide

theorem witness_DecodeOfEncodeIsTheInstruction :
    (Instr.ldRrN .sp 0xFFFF).wf = true ∧ (Instr.bit 7 .hlInd).wf = true ∧ (Instr.noEntry 0xFD).wf = true := by
  decide

theorem witness_EncodeOfDecodeIsTheBytes :
    decode [0xCD, 0xFF, 0x00, 0x76] = .ok (.call 0x00FF, [0x76]) := rfl

theorem witness_LengthIsToldByTheFirstByte :
    (Instr.call 0x00FF).wf = true ∧ encode (.call 0x00FF) = 0xCD :: [0xFF, 0x00] := by decide

theorem witness_StepRunsTheDecodedInstruction :
    (let s := given [0x3E, 0x11] [] { State.reset with display := [[⟨0x4B, 0xFF⟩]] }
    s.fault = none ∧ (Instr.ldRN .a 0x11).wf = true ∧
    (fetchInstr (displayTurn s)).1 = encode (.ldRN .a 0x11)) ∧ State.reset.display = [] := by decide

/-- The bytes at the end of a quiet range: 0xFEFD to 0xFEFF. -/
theorem witness_StepRunsTheInstructionStoredAtPc :
    (let s := placeBytes [0xCD, 0x00, 0x20] 0xFEFD { State.reset with pc := 0xFEFD }
    s.fault = none ∧ s.display = [] ∧ (Instr.call 0x2000).wf = true ∧
    (encode (.call 0x2000)).length = 3 ∧
    (readsQuietly s.pc ∧ s.mem.read (cellOf s.pc) = 0xCD) ∧
    (readsQuietly (s.pc + 1) ∧ s.mem.read (cellOf (s.pc + 1)) = 0x00) ∧
    (readsQuietly (s.pc + 2) ∧ s.mem.read (cellOf (s.pc + 2)) = 0x20)) := by
  unfold readsQuietly; decide

theorem witness_FetchReadsAscendingAndChangesNoState :
    fetchLength ((given [0xF0] [] State.reset).busByte 0x0150) = 2 ∧
    fetchLength ((given [0xC3] [] State.reset).busByte 0x0150) = 3 := by decide

theorem witness_FaultedBlockTakesNoStep : latched.fault = some .unknownOpcode := by decide

theorem witness_DisplaySubsystemChangesOnlyItsCells :
    ¬ (0xFF00 ≤ (0xFEFF : Nat) ∧ (0xFEFF : Nat) ≤ 0xFF4B) ∧
    ¬ (0xFF00 ≤ (0xFF4C : Nat) ∧ (0xFF4C : Nat) ≤ 0xFF4B) := by decide

theorem witness_EveryInstructionEndsInItsTableFaultOrNone :
    State.reset.fault = none ∧ latched.fault ≠ none := by decide

/-- Each clause: an entry that faults; an unaffected flag, a flag forced to 0 and one forced to 1 (BIT). -/
theorem witness_EveryInstructionKeepsItsFlagContract :
    (∃ t, exec .daa State.reset = .next t) ∧ Instr.daa.wf = true ∧ Instr.daa ≠ .pop .af ∧
    faultOf .daa ≠ none ∧
    (∃ t, exec (.bit 0 (.reg .b)) State.reset = .next t) ∧ (Instr.bit 0 (.reg .b)).wf = true ∧
    Instr.bit 0 (.reg .b) ≠ .pop .af ∧ faultOf (.bit 0 (.reg .b)) = none ∧
    tagOf (rom (.bit 0 (.reg .b))).tags .c = .unaffected ∧
    tagOf (rom (.bit 0 (.reg .b))).tags .n = .forced0 ∧
    tagOf (rom (.bit 0 (.reg .b))).tags .h = .forced1 :=
  ⟨⟨_, rfl⟩, rfl, by decide, by decide, ⟨_, rfl⟩, rfl, by decide, rfl, rfl, rfl, rfl⟩

theorem witness_PcAdvancesByTheLengthUnlessRedirectedOrFaulted :
    (∃ t, exec (.ldRrN .sp 0) State.reset = .next t) ∧ (Instr.ldRrN .sp 0).wf = true ∧
    faultOf (.ldRrN .sp 0) = none ∧ mayRedirect (.ldRrN .sp 0) = false ∧
    (∃ t, exec (.pop .af) State.reset = .next t) ∧ (Instr.pop .af).wf = true ∧ faultOf (.pop .af) ≠ none :=
  ⟨⟨_, rfl⟩, rfl, rfl, rfl, ⟨_, rfl⟩, rfl, by decide⟩

theorem witness_EveryInstructionStoresOnlyWhereItsRuleSays :
    (∃ t, exec (.push .bc) { State.reset with sp := 0xE001 } = .next t) ∧
    0xC001 ∉ (storesOf { State.reset with sp := 0xE001 } (.push .bc)).map cellOf ∧
    (∃ t, exec (.cp .hlInd) State.reset = .next t) ∧ storesOf State.reset (.cp .hlInd) = [] :=
  ⟨⟨_, rfl⟩, by decide, ⟨_, rfl⟩, rfl⟩

theorem witness_EveryInstructionWritesOnlyItsRegisters :
    (∃ t, exec (.inc8 .hlInd) State.reset = .next t) ∧ Reg8.h ∉ regsOf (.inc8 .hlInd) ∧
    writesSp (.inc8 .hlInd) = false := ⟨⟨_, rfl⟩, by decide, rfl⟩

/-- A backward jump across address 0, for both values of the parameter. -/
theorem witness_JrAddsTheSignedByteToTheAddressOfTheJr :
    (0xFF82#16 = BitVec.ofInt 16 ((0x0002#16).toNat + (0x80#8).toInt + 0)) ∧
    (0xFF84#16 = BitVec.ofInt 16 ((0x0002#16).toNat + (0x80#8).toInt + 2)) := by decide

theorem witness_AutoAdjustMovesHlAfterTheTransfer :
    0xFFFF#16 = { State.reset with h := 0xFF, l := 0xFF }.h ++ { State.reset with h := 0xFF, l := 0xFF }.l := by
  decide

/-- The byte an ALU, INC, DEC, BIT, rotate or shift statement is about, from a register and from [HL]. -/
theorem witness_operand_byte :
    0x7F#8 = { State.reset with e := 0x7F }.opndByte (.reg .e) ∧
    0x80#8 = { State.reset with h := 0xFE, l := 0x00, mem := [(0xFE00, 0x80)] }.opndByte .hlInd := by decide

theorem witness_IncDecPairTouchNoFlag :
    { State.reset with b := 0xFF, c := 0xFF }.b = 0xFF ∧ { State.reset with b := 0xFF, c := 0xFF }.c = 0xFF ∧
    State.reset.d = 0x00 ∧ State.reset.e = 0x00 ∧ State.reset.h = 0x00 ∧ State.reset.l = 0x00 := by decide

/-- The nine bits of a carry of 1 and the byte 0x80, rotated each way. -/
theorem witness_RlRrRotateThroughTheCarry :
    (0x101#9 = (BitVec.ofBool true ++ 0x80#8).rotateLeft 1) ∧
    (0x0C0#9 = (BitVec.ofBool true ++ 0x80#8).rotateRight 1) := by decide

theorem witness_RotatesUndoEachOther (s : State) :
    (∃ t u, exec (.rr (.reg .b)) s = .next t ∧ exec (.rl (.reg .b)) t = .next u) ∧
    (∃ t u, exec (.rl (.reg .b)) s = .next t ∧ exec (.rr (.reg .b)) t = .next u) :=
  ⟨⟨_, _, rfl, rfl⟩, ⟨_, _, rfl, rfl⟩⟩

/-- The two reads of POP AF, in the suspicious range, where they show on the diagnostic stream. -/
theorem witness_PopAfWritesThenLatchesFlagContractViolation :
    ∃ s1 s2 : State, { State.reset with sp := 0xFF7E }.memRead 0xFF7E = (0, s1) ∧
      s1.memRead (0xFF7E + 1) = (0, s2) ∧ s2.susp.length = 2 := ⟨_, _, rfl, rfl, rfl⟩

theorem witness_RetReturnsAfterTheCallAndToTheRst :
    (let s : State := { State.reset with sp := 0xFF00 }
    s.mem.wf = true ∧ storesPlainly (s.sp - 1) ∧ storesPlainly (s.sp - 2) ∧
    (∃ t, exec (.call 0x2000) s = .next t) ∧ (∃ t, exec (.rst 7) s = .next t)) :=
  ⟨rfl, by unfold storesPlainly; decide, by unfold storesPlainly; decide, ⟨_, rfl⟩, ⟨_, rfl⟩⟩

theorem witness_BytesWithNoEntryLatchUnknownOpcode :
    (let s := given [0xFD] [] State.reset
    s.fault = none ∧ s.display = [] ∧
    s.busByte s.pc ∈ ([0xD3, 0xDB, 0xDD, 0xE3, 0xE4, 0xEB, 0xEC, 0xED, 0xF4, 0xFC, 0xFD] : List Byte)) := by
  decide

end Sys2Proof.Tests
end

section
/-!
PROOFS. The register file (R15, R16) and the flag write (R14, R17).
-/

namespace Sys2Proof.Machine

/-! ### The register file -/

/-- The two byte writes of a pair write go to different registers, so the pair reads back both (R16). -/
@[simp] theorem State.get16_set16_same (s : State) (p : Pair) (w : Word) :
    (s.set16 p w).get16 p = w := by
  cases p with
  | sp => rfl
  | bc | de | hl | af => exact cat_hi8_lo8 w

/-- Settles O4: the 8-bit clauses are the laws of `get8` and `set8`, the pair clauses are that a word is
its high byte beside its low byte; what a view is made of holds by definition. -/
theorem registerFileReadsBackWhatWasWritten : Obligations.RegisterFileReadsBackWhatWasWritten := by
  intro s
  refine ⟨?bytes, gregReg_ne_f, s.get16_set16_same, ?views, ?pairWrites⟩
  case bytes =>
    exact fun r v =>
      ⟨s.get8_set8_same r v, s.set8_sp r v, s.set8_pc r v, fun _ hq => s.get8_set8_other v hq⟩
  case views => exact ⟨rfl, rfl, rfl, rfl, rfl⟩
  case pairWrites => exact fun _ => ⟨rfl, rfl, rfl, rfl, rfl⟩

/-! ### The flag write -/

/-- Every flag is in the high nibble of F (R14). -/
theorem flagIndex_mem_highNibble (k : Flag) : 4 ≤ flagIndex k ∧ flagIndex k < 8 := by
  cases k <;> decide

/-- Different flags are different bits of F (R14). -/
theorem flagIndex_injective : Function.Injective flagIndex := by
  intro j k h
  cases j <;> cases k <;> simp [flagIndex] at h ⊢

/-- The flag written reads as the value given (R17). -/
theorem setFlagByte_same (k : Flag) (b : Bool) (f : Byte) :
    (setFlagByte k b f).getLsbD (flagIndex k) = b := by
  rw [setFlagByte_bit, if_pos rfl, decide_eq_true (flagIndex_mem_highNibble k), Bool.true_and]

/-- A flag write leaves every other flag (R17). -/
theorem setFlagByte_other {j k : Flag} (h : j ≠ k) (b : Bool) (f : Byte) :
    (setFlagByte k b f).getLsbD (flagIndex j) = f.getLsbD (flagIndex j) := by
  rw [setFlagByte_bit, if_neg (flagIndex_injective.ne h), decide_eq_true (flagIndex_mem_highNibble j),
    Bool.true_and]

/-- A flag write ends in the mask 0xF0, which has no bit in the low nibble (R14). -/
@[simp] theorem setFlagByte_lowNibble (k : Flag) (b : Bool) (f : Byte) :
    setFlagByte k b f &&& 0x0F = 0 := by
  have hmask : (0xF0 &&& 0x0F : Byte) = 0#8 := by decide
  rw [setFlagByte, BitVec.and_assoc, hmask]
  exact BitVec.and_zero

/-- Settles O5: the positions hold by definition; a flag write is described bit by bit, and different flags
are different bits. -/
theorem flagWriteSetsOneBitAndClearsTheLowNibble :
    Obligations.FlagWriteSetsOneBitAndClearsTheLowNibble :=
  ⟨fun _ => ⟨rfl, rfl, rfl, rfl⟩, fun k b f =>
    ⟨setFlagByte_same k b f, fun _ hj => setFlagByte_other hj b f, setFlagByte_lowNibble k b f⟩⟩

end Sys2Proof.Machine
end

section
/-!
PROOFS. The memory bus: the echo range (R42) and the suspicious range (R46), with the facts about ranges and
cells they rest on.
-/

namespace Sys2Proof.Machine

/-! ### Ranges and cells -/

/-- The display range by its bounds, whatever the cartridge size (R41). -/
theorem State.regionOf_eq_display (s : State) (a : Word) :
    s.regionOf a = .display ↔ 0xFF00 ≤ a.toNat ∧ a.toNat ≤ 0xFF4B := by
  unfold State.regionOf region
  split_ifs <;> simp <;> omega

/-- The suspicious range by its bounds, whatever the cartridge size (R41). -/
theorem State.regionOf_eq_suspicious (s : State) (a : Word) :
    s.regionOf a = .suspicious ↔ 0xFF4C ≤ a.toNat ∧ a.toNat ≤ 0xFF7F := by
  unfold State.regionOf region
  split_ifs <;> simp <;> omega

/-- Outside the echo range an address is a direct index (R41). -/
theorem cellOf_of_not_echo {a : Word} (h : ¬ (0xE000 ≤ a.toNat ∧ a.toNat ≤ 0xFDFF)) :
    cellOf a = a.toNat :=
  if_neg h

/-- An echo address and the address 0x2000 below resolve to one cell (R42). -/
theorem cellOf_sub_of_echo {a : Word} (hlo : 0xE000 ≤ a.toNat) (hhi : a.toNat < 0xFE00) :
    cellOf (a - 0x2000) = cellOf a := by
  have hbelow : (a - 0x2000).toNat = a.toNat - 0x2000 := by bv_omega
  rw [cellOf_of_not_echo (by omega), hbelow, cellOf, if_pos (by omega)]

/-! ### Reads and writes of the bus -/

/-- Only the display range answers anything but the cell (R41, R43). -/
theorem State.busByte_eq_cell (s : State) {a : Word} (h : ¬ (0xFF00 ≤ a.toNat ∧ a.toNat ≤ 0xFF4B)) :
    s.busByte a = s.cell a := by
  unfold State.busByte
  split
  · next hr => exact absurd ((s.regionOf_eq_display a).mp hr) h
  · rfl

/-- A read outside the display range after a write through any address of the same cell gives the byte
written. -/
theorem State.busByte_memWrite (s : State) {a b : Word} (v : Byte) (hwf : s.mem.wf = true)
    (hcell : cellOf b = cellOf a) (hb : ¬ (0xFF00 ≤ b.toNat ∧ b.toNat ≤ 0xFF4B)) :
    (s.memWrite a v).busByte b = v := by
  rw [State.busByte_eq_cell _ hb, State.cell, State.memWrite_mem, hcell]
  exact Memory.read_write_same hwf _ v

/-- A read of the suspicious range adds one event (R46). -/
theorem State.afterRead_suspicious (s : State) {a : Word} (h : s.regionOf a = .suspicious) :
    s.afterRead a = s.emitSusp a .read (s.cell a) := by
  simp only [State.afterRead, h]

/-- A write of the suspicious range stores the byte and adds one event (R46). -/
theorem State.memWrite_suspicious (s : State) {a : Word} (v : Byte) (h : s.regionOf a = .suspicious) :
    s.memWrite a v = (s.emitSusp a .write v).setCell a v := by
  simp only [State.memWrite, h]

/-! ### The obligations -/

/-- Settles O10: an echo address and the one 0x2000 below are outside the display range and resolve to one
cell, and no address resolves to a cell of the echo range. -/
theorem echoRangeIsAnAlias : Obligations.EchoRangeIsAnAlias := by
  refine ⟨fun s a v hwf hlo hhi => ?oneCell, fun s a v k hlo hhi => ?untouched⟩
  case oneCell =>
    have hcell : cellOf (a - 0x2000) = cellOf a := cellOf_sub_of_echo hlo hhi
    have hecho : ¬ (0xFF00 ≤ a.toNat ∧ a.toNat ≤ 0xFF4B) := by omega
    have hprimary : ¬ (0xFF00 ≤ (a - 0x2000).toNat ∧ (a - 0x2000).toNat ≤ 0xFF4B) := by bv_omega
    refine ⟨?_, s.busByte_memWrite v hwf hcell hprimary, s.busByte_memWrite v hwf hcell.symm hecho⟩
    simp only [State.memRead_fst, State.busByte_eq_cell s hecho, State.busByte_eq_cell s hprimary,
      State.cell, hcell]
  case untouched =>
    have hk : cellOf a ≠ k := fun h => cellOf_not_echo a ⟨h ▸ hlo, h ▸ hhi⟩
    exact ⟨hk, s.memWrite_cell_other a v hk.symm⟩

/-- Settles O13: the range is outside the display and the echo range, so its accesses are of the cell of the
same number; the event is the only other effect. -/
theorem suspiciousAccessIsOrdinaryPlusOneEvent :
    Obligations.SuspiciousAccessIsOrdinaryPlusOneEvent := by
  intro s a v hwf hlo hhi
  have hregion : s.regionOf a = .suspicious := (s.regionOf_eq_suspicious a).mpr ⟨hlo, hhi⟩
  have hplain : ¬ (0xFF00 ≤ a.toNat ∧ a.toNat ≤ 0xFF4B) := by omega
  have hcell : cellOf a = a.toNat := cellOf_of_not_echo (by omega)
  refine ⟨?read, ?write, s.busByte_memWrite v hwf rfl hplain⟩
  case read =>
    rw [State.memRead, s.busByte_eq_cell hplain, s.afterRead_suspicious hregion, State.cell, hcell]
    rfl
  case write =>
    rw [s.memWrite_suspicious v hregion, State.setCell, hcell]
    rfl

end Sys2Proof.Machine
end

section
/-!
PROOFS. The stages of a step: the 3-bit operand (R105), the commit of a proposal (R109), and the block whose
fault latch is set (R117).
-/

namespace Sys2Proof.Machine

/-! ### The 3-bit operand -/

/-- Reading a register operand changes nothing (R105). -/
theorem State.read8_reg (s : State) (r : GReg) : s.read8 (.reg r) = (s.get8 (gregReg r), s) := rfl

/-- Reading [HL] is one bus read (R105). -/
theorem State.read8_hlInd (s : State) : s.read8 .hlInd = s.memRead (s.get16 .hl) := rfl

/-- Writing a register operand is a register write (R105). -/
theorem State.write8_reg (s : State) (r : GReg) (v : Byte) :
    s.write8 (.reg r) v = s.set8 (gregReg r) v := rfl

/-- Writing [HL] is one bus write (R105). -/
theorem State.write8_hlInd (s : State) (v : Byte) : s.write8 .hlInd v = s.memWrite (s.get16 .hl) v := rfl

/-- Settles O37: the equations of the two operand forms, with the view HL written as `{H, L}` (R16). -/
theorem operandIsARegisterOrTheByteAtHl : Obligations.OperandIsARegisterOrTheByteAtHl :=
  fun s v => ⟨fun r => ⟨s.read8_reg r, s.write8_reg r v⟩, s.read8_hlInd, s.write8_hlInd v⟩

/-! ### The commit of a proposal -/

/-- A slot committed decides its own flag (R109). -/
theorem commitSlot_same (k : Flag) (slot : Option Bool) (f : Byte) :
    (commitSlot k slot f).getLsbD (flagIndex k) = slot.getD (f.getLsbD (flagIndex k)) := by
  cases slot with
  | none => rfl
  | some b => exact setFlagByte_same k b f

/-- A slot committed leaves every other flag (R109, R17). -/
theorem commitSlot_other {j k : Flag} (h : j ≠ k) (slot : Option Bool) (f : Byte) :
    (commitSlot k slot f).getLsbD (flagIndex j) = f.getLsbD (flagIndex j) := by
  cases slot with
  | none => rfl
  | some b => exact setFlagByte_other h b f

/-- A slot committed clears the low nibble exactly when it is set (R109, R17). -/
theorem commitSlot_lowNibble (k : Flag) (slot : Option Bool) (f : Byte) :
    commitSlot k slot f &&& 0x0F = if slot = none then f &&& 0x0F else 0 := by
  cases slot with
  | none => rfl
  | some b => exact setFlagByte_lowNibble k b f

/-- The four slots are committed one after another, and one of them alone decides a given flag (R109). -/
theorem commitByte_flag (p : Proposal) (f : Byte) (k : Flag) :
    (commitByte p f).getLsbD (flagIndex k) = (slotOf p k).getD (f.getLsbD (flagIndex k)) := by
  cases k <;> simp [commitByte, commitSlot_same, commitSlot_other, slotOf]

/-- One set slot is enough to clear the low nibble: no later slot sets a bit of it (R109). -/
theorem commitByte_lowNibble {p : Proposal} (hp : p ≠ noFlags) (f : Byte) :
    commitByte p f &&& 0x0F = 0 := by
  obtain ⟨z, n, h, c⟩ := p
  simp only [commitByte, commitSlot_lowNibble]
  split_ifs with hc hh hn hz
  · subst hc hh hn hz
    exact absurd rfl hp
  all_goals rfl

/-- Settles O6: the frame and the empty proposal hold by the definition of the commit; the flags and the low
nibble are facts about the byte committed to F. -/
theorem commitWritesExactlyTheProposedFlags : Obligations.CommitWritesExactlyTheProposedFlags :=
  fun s p => ⟨rfl, commitByte_flag p s.f, fun hp => commitByte_lowNibble hp s.f, s.commit_noFlags⟩

/-! ### The latched block -/

section LatchedBlock
variable {s : State} {f : FaultName}

/-- A latched block answers the stop instead of a next state (R117). -/
theorem step_of_fault (hf : s.fault = some f) : step s = .fault (.stopped f) := by
  simp only [step, hf]

/-- A run of a latched block is over at its first step (R117). -/
theorem run_succ_of_fault (hf : s.fault = some f) (n : Nat) :
    Sys2Proof.core.run (n + 1) s = .fault (.stopped f) := by
  simp only [Host.Core.run, Sys2Proof.core, step_of_fault hf]

/-- No run of a latched block is safe: the empty one ends in the latched state itself, and a longer one in
the stop (R117, R365). -/
theorem not_safeRun_of_fault (hf : s.fault = some f) (n : Nat) : ¬ SafeRun n s := by
  rintro ⟨t, hrun, ht⟩
  cases n with
  | zero =>
    cases hrun
    simp [hf] at ht
  | succ n => simp [run_succ_of_fault hf] at hrun

end LatchedBlock

/-- Reset clears the latch, whatever state it is asserted in (R329, R350). -/
theorem resetBlock_fault (x : Launch) (s : State) : (resetBlock x s).fault = none := rfl

/-- Settles O22: a latched block stops at once, so it has neither a next state nor a safe run; reset clears
the latch. -/
theorem faultedBlockTakesNoStep : Obligations.FaultedBlockTakesNoStep := by
  intro s f hf
  refine ⟨fun t ht => ?noStep, fun n => ⟨run_succ_of_fault hf n, not_safeRun_of_fault hf n⟩,
    fun x => resetBlock_fault x s⟩
  case noStep => simp [step_of_fault hf] at ht

end Sys2Proof.Machine
end

section
/-!
PROOFS. NOP, DI (R130, R131) and JP a16 (R135): instructions that propose no flag, so that ADVANCE alone
decides their next state.
-/

namespace Sys2Proof.Machine

/-- An entry with the tags `- - - -` and the empty proposal completes with PC as its only change: the
verifier accepts, nothing is committed, and ADVANCE writes PC (R108 to R110). -/
theorem complete_noFlags {d : Descriptor} (htags : d.tags = tagsNone) (r : Option Word) (s : State) :
    complete d noFlags r s = .next { s with pc := r.getD (s.pc + BitVec.ofNat 16 d.length) } := by
  have hfits : verify d.tags noFlags = true := by rw [htags, verify_none]
  exact complete_fits hfits r s

/-- NOP moves PC by its length, 1 (R130). -/
theorem exec_nop (s : State) : exec .nop s = .next { s with pc := s.pc + 1 } :=
  complete_noFlags (d := rom .nop) rfl none s

/-- DI moves PC by its length, 1, and has no other effect: there is no interrupt state (R131). -/
theorem exec_di (s : State) : exec .di s = .next { s with pc := s.pc + 1 } :=
  complete_noFlags (d := rom .di) rfl none s

/-- JP a16 redirects, so its length is not added (R135). -/
theorem exec_jp (a16 : Word) (s : State) : exec (.jp a16) s = .next { s with pc := a16 } :=
  complete_noFlags (d := rom (.jp a16)) rfl (some a16) s

/-- Settles O29: the Entry clauses are read off the encoder and the ROM; the three next states are those of
an entry that completes without a flag, with no redirect for NOP and DI and with one for JP. -/
theorem nopDiAdvanceAndJpRedirects : Obligations.NopDiAdvanceAndJpRedirects :=
  ⟨⟨rfl, rfl, rfl⟩, ⟨rfl, rfl, rfl⟩, exec_nop, exec_di, fun _ => ⟨rfl, rfl, rfl⟩, exec_jp⟩

end Sys2Proof.Machine
end

section
/-!
PROOFS. JR e8 and JR cc, e8 (R136, R137): the target of a relative jump as a sum of integers modulo 65536
(R140), the bit of F each condition tests (R111), and the next state of each form.
-/

namespace Sys2Proof.Machine

/-! ### The target -/

/-- The adjustment as the integer the rule adds (R140). -/
theorem jrAdjust_eq_ofInt (p : JrBase) :
    jrAdjust p = BitVec.ofInt 16 (if p = .literal then 0 else 2) := by
  cases p <;> rfl

/-- Reduction modulo 65536 commutes with the sum: each summand of the target is the word of its integer
(R140). -/
theorem State.jrTarget_eq_ofInt (s : State) (e8 : Byte) :
    s.jrTarget e8 =
      BitVec.ofInt 16 (s.pc.toNat + e8.toInt + (if s.params.jrBase = .literal then 0 else 2)) := by
  have hpc : BitVec.ofInt 16 s.pc.toNat = s.pc := by simp
  have hoffset : BitVec.ofInt 16 e8.toInt = sext16 e8 := rfl
  rw [BitVec.ofInt_add, BitVec.ofInt_add, hpc, hoffset, ← jrAdjust_eq_ofInt, State.jrTarget]

/-! ### The conditions -/

/-- NZ is Z clear, bit 7 of F (R14, R111). -/
theorem State.cond_nz_iff (s : State) : s.cond .nz = true ↔ s.f.getLsbD 7 = false :=
  Iff.of_eq (Bool.not_eq_true' _)

/-- Z is Z set, bit 7 of F (R14, R111). -/
theorem State.cond_z_iff (s : State) : s.cond .z = true ↔ s.f.getLsbD 7 = true := Iff.rfl

/-- NC is C clear, bit 4 of F (R14, R111). -/
theorem State.cond_nc_iff (s : State) : s.cond .nc = true ↔ s.f.getLsbD 4 = false :=
  Iff.of_eq (Bool.not_eq_true' _)

/-- C is C set, bit 4 of F (R14, R111). -/
theorem State.cond_c_iff (s : State) : s.cond .c = true ↔ s.f.getLsbD 4 = true := Iff.rfl

/-! ### The next states -/

/-- JR always redirects, so its length is not added (R136). -/
theorem exec_jr (e8 : Byte) (s : State) : exec (.jr e8) s = .next { s with pc := s.jrTarget e8 } :=
  complete_noFlags (d := rom (.jr e8)) rfl (some (s.jrTarget e8)) s

/-- JR cc redirects when its condition holds, and else moves PC by its length, 2 (R137). -/
theorem exec_jrCc (cc : Cond) (e8 : Byte) (s : State) :
    exec (.jrCc cc e8) s = .next { s with pc := if s.cond cc then s.jrTarget e8 else s.pc + 2 } := by
  have hpc : (if s.cond cc then some (s.jrTarget e8) else none).getD (s.pc + 2) =
      if s.cond cc then s.jrTarget e8 else s.pc + 2 := by
    split <;> rfl
  rw [← hpc]
  exact complete_noFlags (d := rom (.jrCc cc e8)) rfl _ s

/-- Settles O30: the Entry clauses are read off the encoder and the ROM; the target given is that of the
model, and each condition is its bit of F. -/
theorem jrAddsTheSignedByteToTheAddressOfTheJr :
    Obligations.JrAddsTheSignedByteToTheAddressOfTheJr := by
  intro e8 s
  refine ⟨⟨rfl, rfl, rfl⟩, ⟨rfl, rfl, rfl⟩, ⟨rfl, rfl, rfl⟩, ⟨rfl, rfl, rfl⟩, ⟨rfl, rfl, rfl⟩, ?nextStates⟩
  case nextStates =>
    intro target htarget
    obtain rfl : target = s.jrTarget e8 := htarget.trans (s.jrTarget_eq_ofInt e8).symm
    simp only [exec_jr, exec_jrCc, s.cond_nz_iff, s.cond_z_iff, s.cond_nc_iff, s.cond_c_iff, and_self]

end Sys2Proof.Machine
end

section
/-!
PROOFS. LD and LDH (R150 to R163, R165 to R168): one value copied, no flag proposed and no redirect (R149), so
that each next state is what the transfer leaves with PC moved by the length.
-/

namespace Sys2Proof.Machine

/-! ### Words given by their bytes -/

/-- The high byte of a word given by its bytes. -/
@[simp] theorem hi8_append (h l : Byte) : hi8 (h ++ l) = h := hi8_cat h l

/-- The low byte of a word given by its bytes. -/
@[simp] theorem lo8_append (h l : Byte) : lo8 (h ++ l) = l := lo8_cat h l

/-- The operand bytes of a 16-bit operand given by its bytes, the low one first (R76). -/
theorem operandBytes_append (h l : Byte) : [lo8 (h ++ l), hi8 (h ++ l)] = [l, h] := by
  rw [lo8_append, hi8_append]

/-- The high-page address has 0xFF as its high byte: `zext_16` leaves the bits of 0xFF00 alone (R167). -/
theorem highPage_eq_append (a8 : Byte) : highPage a8 = 0xFF#8 ++ a8 := by
  have hsum : 0xFF <<< 8 + a8.toNat = 0xFF <<< 8 ||| a8.toNat :=
    Nat.shiftLeft_add_eq_or_of_lt a8.isLt 0xFF
  apply BitVec.eq_of_toNat_eq
  rw [BitVec.toNat_append, BitVec.toNat_ofNat, ← hsum, highPage, zext16]
  bv_omega

/-- The successor modulo 65536 is the word sum. -/
theorem succ16_eq (w : Word) : succ16 w = w + 1 := by
  unfold succ16
  bv_omega

/-- The predecessor modulo 65536 is the word difference. -/
theorem pred16_eq (w : Word) : pred16 w = w - 1 := by
  unfold pred16
  bv_omega

/-! ### What every form shares -/

/-- An entry with the tags `- - - -`, no proposal and no redirect: when its handler has left PC alone, PC
moves by the length and everything else is as the handler left it (R108 to R110, R149). -/
theorem complete_advances {d : Descriptor} (htags : d.tags = tagsNone) {s x : State} (hpc : x.pc = s.pc) :
    complete d noFlags none x = .next { x with pc := s.pc + BitVec.ofNat 16 d.length } := by
  rw [complete_noFlags htags none x, hpc]
  rfl

/-- HL moved up, when the transfer has left it alone: the new value is that of the old HL (R159). -/
theorem State.incHl_eq {s x : State} (hhl : x.get16 .hl = s.get16 .hl) :
    x.incHl = x.set16 .hl (succ16 (s.get16 .hl)) := by
  rw [State.incHl, hhl, succ16_eq]

/-- HL moved down, when the transfer has left it alone (R160). -/
theorem State.decHl_eq {s x : State} (hhl : x.get16 .hl = s.get16 .hl) :
    x.decHl = x.set16 .hl (pred16 (s.get16 .hl)) := by
  rw [State.decHl, hhl, pred16_eq]

/-! ### The auto-adjusting forms -/

section AutoAdjust
variable {d : Descriptor} (htags : d.tags = tagsNone) {s x : State} (hpc : x.pc = s.pc)
  (hhl : x.get16 .hl = s.get16 .hl)
include htags hpc hhl

/-- A transfer that leaves PC and HL alone, then HL moved up: H, L and PC are all that changes after it
(R159, R161). -/
theorem complete_incHl :
    complete d noFlags none x.incHl = .next { x with
      h := hi8 (succ16 (s.get16 .hl)), l := lo8 (succ16 (s.get16 .hl)),
      pc := s.pc + BitVec.ofNat 16 d.length } := by
  rw [State.incHl_eq hhl]
  exact complete_advances htags hpc

/-- A transfer that leaves PC and HL alone, then HL moved down (R160, R162). -/
theorem complete_decHl :
    complete d noFlags none x.decHl = .next { x with
      h := hi8 (pred16 (s.get16 .hl)), l := lo8 (pred16 (s.get16 .hl)),
      pc := s.pc + BitVec.ofNat 16 d.length } := by
  rw [State.decHl_eq hhl]
  exact complete_advances htags hpc

end AutoAdjust

/-- A byte read over the bus into A leaves PC alone. -/
theorem State.loadA_pc (s : State) (a : Word) : ((s.afterRead a).set8 .a (s.busByte a)).pc = s.pc :=
  s.afterRead_pc a

/-- A byte read over the bus into A leaves HL alone. -/
theorem State.loadA_hl (s : State) (a : Word) :
    ((s.afterRead a).set8 .a (s.busByte a)).get16 .hl = s.get16 .hl :=
  s.afterRead_get16 a .hl

/-- Settles O36: neither a read into A nor a bus write moves HL or PC, so HL moves from its old value once
the byte is transferred, and by one modulo 65536. -/
theorem autoAdjustMovesHlAfterTheTransfer : Obligations.AutoAdjustMovesHlAfterTheTransfer := by
  refine ⟨⟨rfl, rfl, rfl⟩, ⟨rfl, rfl, rfl⟩, ⟨rfl, rfl, rfl⟩, ⟨rfl, rfl, rfl⟩, ?nextStates⟩
  case nextStates =>
    rintro s hl rfl
    refine ⟨?loadUp, ?loadDown, ?storeUp, ?storeDown⟩
    case loadUp => exact complete_incHl (d := rom .ldAHli) rfl (s.loadA_pc _) (s.loadA_hl _)
    case loadDown => exact complete_decHl (d := rom .ldAHld) rfl (s.loadA_pc _) (s.loadA_hl _)
    case storeUp =>
      exact complete_incHl (d := rom .ldHliA) rfl (s.memWrite_pc _ s.a) (s.memWrite_get16 _ s.a .hl)
    case storeDown =>
      exact complete_decHl (d := rom .ldHldA) rfl (s.memWrite_pc _ s.a) (s.memWrite_get16 _ s.a .hl)

/-! ### Registers and immediates -/

/-- LD r, r' writes the one register (R150). -/
theorem exec_ldRR (dst r : GReg) (s : State) :
    exec (.ldRR dst r) s = .next { s.set8 (gregReg dst) (s.get8 (gregReg r)) with pc := s.pc + 1 } :=
  complete_advances (d := rom (.ldRR dst r)) rfl (s.set8_pc (gregReg dst) _)

/-- LD r, n8 writes the one register (R151). -/
theorem exec_ldRN (dst : GReg) (n8 : Byte) (s : State) :
    exec (.ldRN dst n8) s = .next { s.set8 (gregReg dst) n8 with pc := s.pc + 2 } :=
  complete_advances (d := rom (.ldRN dst n8)) rfl (s.set8_pc (gregReg dst) n8)

/-- LD rr, n16 writes the one view (R163). -/
theorem exec_ldRrN (p : Rp) (n16 : Word) (s : State) :
    exec (.ldRrN p n16) s = .next { s.set16 (rpPair p) n16 with pc := s.pc + 3 } :=
  complete_advances (d := rom (.ldRrN p n16)) rfl (s.set16_pc (rpPair p) n16)

/-- The bytes of LD rr, n16, for every pair and both bytes of the operand (R163). -/
theorem entry_ldRrN (p : Rp) (lo hi : Byte) :
    Entry (.ldRrN p (hi ++ lo)) [0x01 + 16 * rpCode p, lo, hi] '-' '-' '-' '-' :=
  ⟨congrArg (_ :: ·) (operandBytes_append hi lo), rfl, rfl⟩

/-- Settles O32: the three next states above; a pair is written with the operand's two bytes. -/
theorem ldCopiesRegistersAndImmediates : Obligations.LdCopiesRegistersAndImmediates := by
  refine ⟨fun dst r s => ⟨⟨rfl, rfl, rfl⟩, exec_ldRR dst r s⟩,
    fun dst n8 s => ⟨⟨rfl, rfl, rfl⟩, exec_ldRN dst n8 s⟩, fun s lo hi => ?pairs⟩
  case pairs =>
    refine ⟨entry_ldRrN .bc lo hi, entry_ldRrN .de lo hi, entry_ldRrN .hl lo hi, entry_ldRrN .sp lo hi, ?_⟩
    simp only [exec_ldRrN, rpPair, State.set16, State.set8, State.setSp, hi8_append, lo8_append, and_self]

/-! ### Loads -/

/-- LD r, [HL] writes the register with the byte at the old HL (R152). -/
theorem exec_ldRHl (dst : GReg) (s : State) :
    exec (.ldRHl dst) s = .next { (s.afterRead (s.get16 .hl)).set8 (gregReg dst) (s.busByte (s.get16 .hl)) with
      pc := s.pc + 1 } :=
  complete_advances (d := rom (.ldRHl dst)) rfl ((State.set8_pc _ _ _).trans (s.afterRead_pc _))

/-- LD A, [BC] (R155). -/
theorem exec_ldABc (s : State) :
    exec .ldABc s = .next { s.afterRead (s.get16 .bc) with a := s.busByte (s.get16 .bc), pc := s.pc + 1 } :=
  complete_advances (d := rom .ldABc) rfl (s.loadA_pc (s.get16 .bc))

/-- LD A, [DE] (R156). -/
theorem exec_ldADe (s : State) :
    exec .ldADe s = .next { s.afterRead (s.get16 .de) with a := s.busByte (s.get16 .de), pc := s.pc + 1 } :=
  complete_advances (d := rom .ldADe) rfl (s.loadA_pc (s.get16 .de))

/-- LD A, [a16] (R166). -/
theorem exec_ldAA16 (a16 : Word) (s : State) :
    exec (.ldAA16 a16) s = .next { s.afterRead a16 with a := s.busByte a16, pc := s.pc + 3 } :=
  complete_advances (d := rom (.ldAA16 a16)) rfl (s.loadA_pc a16)

/-- LDH A, [a8] reads the high page (R168). -/
theorem exec_ldhAA8 (a8 : Byte) (s : State) :
    exec (.ldhAA8 a8) s =
      .next { s.afterRead (0xFF#8 ++ a8) with a := s.busByte (0xFF#8 ++ a8), pc := s.pc + 2 } := by
  rw [← highPage_eq_append]
  exact complete_advances (d := rom (.ldhAA8 a8)) rfl (s.loadA_pc (highPage a8))

/-- Settles O34: the five next states above, with each pair view written as its two registers (R16). -/
theorem ldLoadsTheByteAtTheAddress : Obligations.LdLoadsTheByteAtTheAddress :=
  ⟨fun dst s => ⟨⟨rfl, rfl, rfl⟩, exec_ldRHl dst s⟩,
   fun s => ⟨⟨rfl, rfl, rfl⟩, exec_ldABc s⟩,
   fun s => ⟨⟨rfl, rfl, rfl⟩, exec_ldADe s⟩,
   fun lo hi s => ⟨⟨congrArg (_ :: ·) (operandBytes_append hi lo), rfl, rfl⟩, exec_ldAA16 (hi ++ lo) s⟩,
   fun a8 s => ⟨⟨rfl, rfl, rfl⟩, exec_ldhAA8 a8 s⟩⟩

/-! ### Stores -/

/-- An entry with the tags `- - - -` whose handler is one bus write: the write, and PC moved by the length
(R149, R153). -/
theorem complete_memWrite {d : Descriptor} (htags : d.tags = tagsNone) (s : State) (a : Word) (v : Byte) :
    complete d noFlags none (s.memWrite a v) =
      .next { s.memWrite a v with pc := s.pc + BitVec.ofNat 16 d.length } :=
  complete_advances htags (s.memWrite_pc a v)

/-- LDH [a8], A writes the high page (R167). -/
theorem exec_ldhA8A (a8 : Byte) (s : State) :
    exec (.ldhA8A a8) s = .next { s.memWrite (0xFF#8 ++ a8) s.a with pc := s.pc + 2 } := by
  rw [← highPage_eq_append]
  exact complete_memWrite (d := rom (.ldhA8A a8)) rfl s (highPage a8) s.a

/-- Settles O35: every form is one bus write at an address that is a pair view, the operand, or in the high
page. -/
theorem ldStoresTheByteAtTheAddress : Obligations.LdStoresTheByteAtTheAddress :=
  ⟨fun r s => ⟨⟨rfl, rfl, rfl⟩,
     complete_memWrite (d := rom (.ldHlR r)) rfl s (s.get16 .hl) (s.get8 (gregReg r))⟩,
   fun n8 s => ⟨⟨rfl, rfl, rfl⟩, complete_memWrite (d := rom (.ldHlN n8)) rfl s (s.get16 .hl) n8⟩,
   fun s => ⟨⟨rfl, rfl, rfl⟩, complete_memWrite (d := rom .ldBcA) rfl s (s.get16 .bc) s.a⟩,
   fun s => ⟨⟨rfl, rfl, rfl⟩, complete_memWrite (d := rom .ldDeA) rfl s (s.get16 .de) s.a⟩,
   fun lo hi s => ⟨⟨congrArg (_ :: ·) (operandBytes_append hi lo), rfl, rfl⟩,
     complete_memWrite (d := rom (.ldA16A (hi ++ lo))) rfl s (hi ++ lo) s.a⟩,
   fun a8 s => ⟨⟨rfl, rfl, rfl⟩, exec_ldhA8A a8 s⟩⟩

end Sys2Proof.Machine
end

section
/-!
PROOFS. The 8-bit ALU and INC, DEC of a byte (R190, R193 to R198, R202 to R214): each handler proposes its flags
and writes at most one operand, so that each next state is what the handler leaves, with the flags committed and
PC moved by the length.
-/

namespace Sys2Proof.Machine

/-! ### The proposals and results, as the rules write them -/

/-- A difference is zero exactly when its two inputs are equal (R192). -/
theorem flagsSub_sub8 (a v : Byte) :
    flagsSub (sub8 a v) =
      proposeAll (decide (a = v)) true (decide (a.toNat % 16 < v.toNat % 16)) (decide (a.toNat < v.toNat)) := by
  have hzero : a - v = 0 ↔ a = v := sub_eq_zero
  simp only [flagsSub, sub8, hzero]

/-- The difference modulo 256 (R192). -/
theorem sub8_result (a v : Byte) :
    (sub8 a v).result = BitVec.ofNat 8 ((a.toNat + 256 - v.toNat) % 256) := by
  rw [sub8]
  bv_omega

/-- An exclusive or is zero exactly when its two inputs are equal (R208). -/
theorem flagsOr_xor (a v : Byte) : flagsOr (a ^^^ v) = proposeAll (decide (a = v)) false false false := by
  have hzero : a ^^^ v = 0 ↔ a = v := BitVec.xor_eq_zero_iff
  simp only [flagsOr, hzero]

/-- One more wraps to zero exactly at 255 (R211). -/
theorem flagsInc_inc8Out (v : Byte) :
    flagsInc (inc8Out v) = proposeZNH (decide (v.toNat = 255)) false (decide (v.toNat % 16 = 15)) := by
  have hzero : v + 1 = 0 ↔ v.toNat = 255 := by bv_omega
  simp only [flagsInc, inc8Out, hzero]

/-- One more, modulo 256 (R211). -/
theorem inc8Out_result (v : Byte) : (inc8Out v).result = BitVec.ofNat 8 ((v.toNat + 1) % 256) := by
  rw [inc8Out]
  bv_omega

/-- One less is zero exactly at 1 (R213). -/
theorem flagsDec_dec8Out (v : Byte) :
    flagsDec (dec8Out v) = proposeZNH (decide (v.toNat = 1)) true (decide (v.toNat % 16 = 0)) := by
  have hzero : v - 1 = 0 ↔ v.toNat = 1 := by bv_omega
  simp only [flagsDec, dec8Out, hzero]

/-- One less, modulo 256 (R213). -/
theorem dec8Out_result (v : Byte) : (dec8Out v).result = BitVec.ofNat 8 ((v.toNat + 255) % 256) := by
  rw [dec8Out]
  bv_omega

/-! ### The last stages after a proposal of flags -/

section Completion
variable {d : Descriptor} {t : FlagTags} (htags : d.tags = t) {p : Proposal} {z n h c : Bool} {s x : State}
include htags

/-- A fitting proposal of all four flags, no redirect, and a handler that has left PC alone: F is the four flags
and PC moves by the length (R108 to R110). -/
theorem complete_proposeAll (hp : p = proposeAll z n h c) (hfits : verify t (proposeAll z n h c) = true)
    (hpc : x.pc = s.pc) :
    complete d p none x =
      .next { x with f := flagByte z n h c, pc := s.pc + BitVec.ofNat 16 d.length } := by
  subst htags hp
  rw [complete_fits hfits, commitByte_all, hpc]
  rfl

/-- A fitting proposal of Z, N and H, when the handler has also left F alone: F is the three flags and the old C
(R108 to R110, R211). -/
theorem complete_proposeZNH (hp : p = proposeZNH z n h) (hfits : verify t (proposeZNH z n h) = true)
    (hpc : x.pc = s.pc) (hf : x.f = s.f) :
    complete d p none x =
      .next { x with f := flagByte z n h (s.f.getLsbD 4), pc := s.pc + BitVec.ofNat 16 d.length } := by
  subst htags hp
  rw [complete_fits hfits, commitByte_znh, hpc, hf]
  rfl

end Completion

/-! ### The ALU: from a state `x` that a read of the right input left with the old A and PC -/

section Alu
variable {i : Instr} {s x : State} (hpc : x.pc = s.pc) (ha : x.a = s.a) (v : Byte)
include hpc ha

/-- CP: the flags of the difference, which is discarded (R193). -/
theorem aluCp_eq (htags : (rom i).tags = tagsSub) :
    aluCp i v x = .next { x with
      f := flagByte (decide (s.a = v)) true (decide (s.a.toNat % 16 < v.toNat % 16))
        (decide (s.a.toNat < v.toNat)),
      pc := s.pc + BitVec.ofNat 16 (rom i).length } :=
  complete_proposeAll htags (by rw [ha, flagsSub_sub8]) rfl hpc

/-- SUB: the flags of CP, with the difference in A (R196). -/
theorem aluSub_eq (htags : (rom i).tags = tagsSub) :
    aluSub i v x = .next { x with
      a := BitVec.ofNat 8 ((s.a.toNat + 256 - v.toNat) % 256),
      f := flagByte (decide (s.a = v)) true (decide (s.a.toNat % 16 < v.toNat % 16))
        (decide (s.a.toNat < v.toNat)),
      pc := s.pc + BitVec.ofNat 16 (rom i).length } := by
  rw [aluSub, ha, ← sub8_result]
  exact complete_proposeAll htags (flagsSub_sub8 s.a v) rfl hpc

/-- AND (R202). -/
theorem aluAnd_eq (htags : (rom i).tags = tagsAnd) :
    aluAnd i v x = .next { x with
      a := s.a &&& v, f := flagByte (decide (s.a &&& v = 0)) false true false,
      pc := s.pc + BitVec.ofNat 16 (rom i).length } := by
  rw [aluAnd, ha]
  exact complete_proposeAll htags rfl rfl hpc

/-- OR (R205). -/
theorem aluOr_eq (htags : (rom i).tags = tagsOr) :
    aluOr i v x = .next { x with
      a := s.a ||| v, f := flagByte (decide (s.a ||| v = 0)) false false false,
      pc := s.pc + BitVec.ofNat 16 (rom i).length } := by
  rw [aluOr, ha]
  exact complete_proposeAll htags rfl rfl hpc

/-- XOR (R208). -/
theorem aluXor_eq (htags : (rom i).tags = tagsOr) :
    aluXor i v x = .next { x with
      a := s.a ^^^ v, f := flagByte (decide (s.a = v)) false false false,
      pc := s.pc + BitVec.ofNat 16 (rom i).length } := by
  rw [aluXor, ha]
  exact complete_proposeAll htags (flagsOr_xor s.a v) rfl hpc

end Alu

/-- Settles O38: `Read8` leaves A and PC alone, so both forms are CP of the old A with the right input. -/
theorem cpSetsTheFlagsOfTheDifference : Obligations.CpSetsTheFlagsOfTheDifference := by
  refine ⟨?operand, fun n8 s => ⟨⟨rfl, rfl, rfl⟩, aluCp_eq (i := .cpN n8) rfl rfl n8 rfl⟩⟩
  case operand =>
    rintro x s v rfl
    exact ⟨⟨rfl, rfl, rfl⟩, aluCp_eq (i := .cp x) (s.afterOpnd_pc x) (s.afterOpnd_a x) _ rfl⟩

/-- Settles O39: as for CP, with the difference written to A. -/
theorem subWritesTheDifferenceAndItsFlags : Obligations.SubWritesTheDifferenceAndItsFlags := by
  refine ⟨?operand, fun n8 s => ⟨⟨rfl, rfl, rfl⟩, aluSub_eq (i := .subN n8) rfl rfl n8 rfl⟩⟩
  case operand =>
    rintro x s v rfl
    exact ⟨⟨rfl, rfl, rfl⟩, aluSub_eq (i := .sub x) (s.afterOpnd_pc x) (s.afterOpnd_a x) _ rfl⟩

/-- Settles O41: the three operations on the old A, with the right input read from the operand or given by the
immediate. -/
theorem logicWritesTheBitwiseResultAndItsFlags : Obligations.LogicWritesTheBitwiseResultAndItsFlags := by
  refine ⟨?operand, ?immediate⟩
  case operand =>
    rintro x s v rfl
    have hpc := s.afterOpnd_pc x
    have ha := s.afterOpnd_a x
    exact ⟨⟨rfl, rfl, rfl⟩, ⟨rfl, rfl, rfl⟩, ⟨rfl, rfl, rfl⟩, aluAnd_eq (i := .and x) hpc ha _ rfl,
      aluOr_eq (i := .or x) hpc ha _ rfl, aluXor_eq (i := .xor x) hpc ha _ rfl⟩
  case immediate =>
    exact fun n8 s => ⟨⟨rfl, rfl, rfl⟩, ⟨rfl, rfl, rfl⟩, ⟨rfl, rfl, rfl⟩,
      aluAnd_eq (i := .andN n8) rfl rfl n8 rfl, aluOr_eq (i := .orN n8) rfl rfl n8 rfl,
      aluXor_eq (i := .xorN n8) rfl rfl n8 rfl⟩

/-! ### INC and DEC of a byte -/

/-- Reading an operand and writing it back leaves PC alone (R105). -/
theorem State.rewriteOpnd_pc (s : State) (x : Opnd8) (v : Byte) : ((s.afterOpnd x).write8 x v).pc = s.pc := by
  rw [State.write8_pc, State.afterOpnd_pc]

/-- Reading an operand and writing it back leaves F alone: F is no register operand (R73, R105). -/
theorem State.rewriteOpnd_f (s : State) (x : Opnd8) (v : Byte) : ((s.afterOpnd x).write8 x v).f = s.f := by
  rw [State.write8_f, State.afterOpnd_f]

/-- INC of a register or [HL] (R211, R212). -/
theorem exec_inc8 (x : Opnd8) (s : State) :
    exec (.inc8 x) s = .next { (s.afterOpnd x).write8 x (inc8Out (s.opndByte x)).result with
      f := flagByte (decide ((s.opndByte x).toNat = 255)) false (decide ((s.opndByte x).toNat % 16 = 15))
        (s.f.getLsbD 4),
      pc := s.pc + 1 } :=
  complete_proposeZNH (d := rom (.inc8 x)) rfl (flagsInc_inc8Out _) rfl (s.rewriteOpnd_pc x _)
    (s.rewriteOpnd_f x _)

/-- DEC of a register or [HL] (R213, R214). -/
theorem exec_dec8 (x : Opnd8) (s : State) :
    exec (.dec8 x) s = .next { (s.afterOpnd x).write8 x (dec8Out (s.opndByte x)).result with
      f := flagByte (decide ((s.opndByte x).toNat = 1)) true (decide ((s.opndByte x).toNat % 16 = 0))
        (s.f.getLsbD 4),
      pc := s.pc + 1 } :=
  complete_proposeZNH (d := rom (.dec8 x)) rfl (flagsDec_dec8Out _) rfl (s.rewriteOpnd_pc x _)
    (s.rewriteOpnd_f x _)

/-- Settles O42: the two next states above, with each result as a number modulo 256. -/
theorem incDecByteKeepTheCarry : Obligations.IncDecByteKeepTheCarry := by
  rintro x s v rfl
  rw [← inc8Out_result, ← dec8Out_result]
  exact ⟨⟨rfl, rfl, rfl⟩, ⟨rfl, rfl, rfl⟩, exec_inc8 x s, exec_dec8 x s⟩

end Sys2Proof.Machine
end

section
/-!
PROOFS. BIT, the rotates through carry and SRL (R230 to R240): each result as bits, the rotates as one rotation of
the nine bits of the carry and the byte, and the next states.
-/

namespace Sys2Proof.Machine

/-! ### The bit BIT tests -/

/-- A bit of a byte is the parity of the byte divided by the power of two of its index, so its inverse is that
the parity is 0 (R230). -/
theorem flagsBit_eq (v : Byte) (b : BitVec 3) :
    flagsBit v b = proposeZNH (decide (v.toNat / 2 ^ b.toNat % 2 = 0)) false true := by
  rw [flagsBit, ← BitVec.testBit_toNat, Nat.testBit_eq_decide_div_mod_eq, ← decide_not]
  simp only [Nat.mod_two_ne_one]

/-- Settles O44: reading the operand leaves F and PC alone, so the commit keeps the old C and PC moves by 2. -/
theorem bitTestsWithoutWriting : Obligations.BitTestsWithoutWriting := by
  rintro b x s v rfl
  exact ⟨⟨rfl, rfl, rfl⟩,
    complete_proposeZNH (d := rom (.bit b x)) rfl (flagsBit_eq _ b) rfl (s.afterOpnd_pc x) (s.afterOpnd_f x)⟩

/-! ### The rotates as rotations of nine bits -/

/-- The carry above a byte, as nine bits (R240). -/
def carryAbove (cin : Bool) (v : Byte) : BitVec 9 := BitVec.ofBool cin ++ v

/-- Bits 7 to 0 are those of the byte and bit 8 is the carry. -/
theorem carryAbove_getElem (cin : Bool) (v : Byte) {i : Nat} (hi : i < 9) :
    (carryAbove cin v)[i] = if hlow : i < 8 then v[i] else cin := by
  rw [carryAbove, BitVec.getElem_append]
  split_ifs with hlow
  · rfl
  · obtain rfl : i = 8 := by omega
    exact BitVec.getElem_ofBool_zero

/-- Rotated left by one, the nine bits are the byte above the carry. -/
theorem carryAbove_rotateLeft (cin : Bool) (v : Byte) : (carryAbove cin v).rotateLeft 1 = v.concat cin := by
  ext i hi
  rw [BitVec.getElem_rotateLeft, BitVec.getElem_concat]
  cases i with
  | zero => exact carryAbove_getElem cin v (by decide)
  | succ i =>
    have hlow : i < 8 := by omega
    simp [carryAbove_getElem, hlow]

/-- Rotated right by one, the nine bits are bit 0 of the byte, the carry, and bits 7 to 1 of the byte. -/
theorem carryAbove_rotateRight (cin : Bool) (v : Byte) :
    (carryAbove cin v).rotateRight 1 = BitVec.cons (v.getLsbD 0) (BitVec.cons cin (v.extractLsb' 1 7)) := by
  ext i hi
  rw [BitVec.getElem_rotateRight, BitVec.getElem_cons]
  rcases (by omega : i = 8 ∨ i = 7 ∨ i < 7) with rfl | rfl | hlow
  · simp [carryAbove_getElem]
  · simp [carryAbove_getElem, BitVec.getElem_cons]
  · simp [carryAbove_getElem, BitVec.getElem_cons, hlow.ne, show i ≠ 8 by omega, show i < 8 by omega,
      show 1 + i < 8 by omega]

/-- Nine bits, read as the outputs of a rotate: the low eight are the result, the ninth is the bit moved out
(R240). -/
def ShiftOut.ofNine (w : BitVec 9) : ShiftOut := ⟨w.extractLsb' 0 8, w.getLsbD 8⟩

/-- `rl` is the rotation of the nine bits left by one (R240). -/
theorem rl8_eq_rotateLeft (v : Byte) (cin : Bool) : rl8 v cin = .ofNine ((carryAbove cin v).rotateLeft 1) := by
  have hresult : BitVec.ofNat 8 (v.toNat * 2 % 256 + cin.toNat) = (v.concat cin).extractLsb' 0 8 := by
    apply BitVec.eq_of_toNat_eq
    simp
  have hcout : v.getLsbD 7 = (v.concat cin).getLsbD 8 := by simp
  rw [carryAbove_rotateLeft, rl8, hresult, hcout, ShiftOut.ofNine]

/-- `rr` is the rotation of the nine bits right by one (R240). -/
theorem rr8_eq_rotateRight (v : Byte) (cin : Bool) : rr8 v cin = .ofNine ((carryAbove cin v).rotateRight 1) := by
  have hresult : BitVec.ofNat 8 (cin.toNat * 128 + v.toNat / 2) =
      (BitVec.cons (v.getLsbD 0) (BitVec.cons cin (v.extractLsb' 1 7))).extractLsb' 0 8 := by
    apply BitVec.eq_of_toNat_eq
    rw [BitVec.toNat_ofNat, BitVec.extractLsb'_toNat, BitVec.toNat_cons', BitVec.toNat_cons',
      BitVec.extractLsb'_toNat]
    simp only [Nat.shiftLeft_eq, Nat.shiftRight_eq_div_pow]
    omega
  have hcout : v.getLsbD 0 = (BitVec.cons (v.getLsbD 0) (BitVec.cons cin (v.extractLsb' 1 7))).getLsbD 8 := by
    simp [BitVec.getElem_cons]
  rw [carryAbove_rotateRight, rr8, hresult, ShiftOut.ofNine, ← hcout]

/-! ### The rotates and SRL of an operand -/

/-- An entry with the tags `Z 0 0 C` that reads its operand and writes the output of a rotate or shift back to it:
Z is that of the result and C the bit moved out (R232, R235, R238). -/
theorem complete_flagsRot {d : Descriptor} (htags : d.tags = tagsRot) (x : Opnd8) (s : State) {o o' : ShiftOut}
    (ho : o = o') :
    complete d (flagsRot o) none ((s.afterOpnd x).write8 x o.result) =
      .next { (s.afterOpnd x).write8 x o'.result with
        f := flagByte (decide (o'.result = 0)) false false o'.cout, pc := s.pc + BitVec.ofNat 16 d.length } := by
  subst ho
  exact complete_proposeAll htags rfl rfl (s.rewriteOpnd_pc x o.result)

/-- Settles O45: RL and RR write back the outputs of `rl` and `rr`, which are the nine bits rotated by one. -/
theorem rlRrRotateThroughTheCarry : Obligations.RlRrRotateThroughTheCarry := by
  rintro x s v _ _ rfl rfl rfl
  exact ⟨⟨rfl, rfl, rfl⟩, ⟨rfl, rfl, rfl⟩,
    complete_flagsRot (d := rom (.rl x)) rfl x s (rl8_eq_rotateLeft (s.opndByte x) (s.flag .c)),
    complete_flagsRot (d := rom (.rr x)) rfl x s (rr8_eq_rotateRight (s.opndByte x) (s.flag .c))⟩

/-- `srl` is the logical shift right by one (R240). -/
theorem srl8_result (v : Byte) : (srl8 v).result = v >>> 1 := by
  rw [srl8]
  bv_omega

/-- Shifted right by one, a byte is zero exactly when it was 0 or 1, and the bit moved out is its parity (R238). -/
theorem flagsRot_srl8 (v : Byte) :
    flagsRot (srl8 v) = proposeAll (decide (v.toNat < 2)) false false (decide (v.toNat % 2 = 1)) := by
  have hzero : v >>> 1 = 0 ↔ v.toNat < 2 := by bv_omega
  have hcout : (srl8 v).cout = decide (v.toNat % 2 = 1) := Nat.testBit_zero v.toNat
  simp only [flagsRot, srl8_result, hzero, hcout]

/-- Settles O47: SRL writes back the shifted operand; its flags are those of the old byte. -/
theorem srlShiftsInZero : Obligations.SrlShiftsInZero := by
  rintro x s v rfl
  rw [← srl8_result]
  exact ⟨⟨rfl, rfl, rfl⟩,
    complete_proposeAll (d := rom (.srl x)) rfl (flagsRot_srl8 _) rfl (s.rewriteOpnd_pc x _)⟩

/-! ### The rotates of A -/

/-- An entry with the tags `0 0 0 C` that writes the output of a rotate to A: Z is 0 whatever the result
(R234, R237). -/
theorem complete_flagsRotA {d : Descriptor} (htags : d.tags = tagsRotA) (s : State) {o o' : ShiftOut}
    (ho : o = o') :
    complete d (flagsRotA o) none (s.set8 .a o.result) =
      .next { s with
        a := o'.result, f := flagByte false false false o'.cout, pc := s.pc + BitVec.ofNat 16 d.length } := by
  subst ho
  exact complete_proposeAll htags rfl rfl rfl

/-- Settles O46: the rotations of O45 on A, with Z, N and H forced to 0. -/
theorem rlaRraForceZeroFlagClear : Obligations.RlaRraForceZeroFlagClear := by
  refine ⟨⟨rfl, rfl, rfl⟩, ⟨rfl, rfl, rfl⟩, ?nextStates⟩
  case nextStates =>
    rintro s _ _ rfl rfl
    exact ⟨complete_flagsRotA (d := rom .rla) rfl s (rl8_eq_rotateLeft s.a (s.flag .c)),
      complete_flagsRotA (d := rom .rra) rfl s (rr8_eq_rotateRight s.a (s.flag .c))⟩

end Sys2Proof.Machine
end

section
/-!
PROOFS. CALL (R251, R252), PUSH (R253), POP of BC, DE and HL (R254) and RET (R256): no flag is proposed, so each
next state is what the stack operation leaves with PC moved by the length or redirected.
-/

namespace Sys2Proof.Machine

/-! ### CALL -/

/-- CALL pushes the address its length further on and redirects (R251). -/
theorem exec_call (a16 : Word) (s : State) :
    exec (.call a16) s = .next { s.push16 (s.pc + 3) with pc := a16 } :=
  complete_noFlags (d := rom (.call a16)) rfl (some a16) (s.push16 (s.pc + 3))

/-- CALL cc is CALL when its condition holds, and else only moves PC by its length (R252). -/
theorem exec_callCc (cc : Cond) (a16 : Word) (s : State) :
    exec (.callCc cc a16) s = .next
      (if s.cond cc then { s.push16 (s.pc + 3) with pc := a16 } else { s with pc := s.pc + 3 }) := by
  change execCallCc cc a16 s = _
  rw [execCallCc]
  split
  case isTrue => exact complete_noFlags rfl (some a16) (s.push16 (s.pc + 3))
  case isFalse => exact complete_noFlags rfl none s

/-- The bytes of CALL, for both bytes of its operand (R251). -/
theorem entry_call (lo hi : Byte) : Entry (.call (hi ++ lo)) [0xCD, lo, hi] '-' '-' '-' '-' :=
  ⟨congrArg (_ :: ·) (operandBytes_append hi lo), rfl, rfl⟩

/-- The bytes of CALL cc, for every condition and both bytes of its operand (R252). -/
theorem entry_callCc (cc : Cond) (lo hi : Byte) :
    Entry (.callCc cc (hi ++ lo)) [0xC4 + 8 * condCode cc, lo, hi] '-' '-' '-' '-' :=
  ⟨congrArg (_ :: ·) (operandBytes_append hi lo), rfl, rfl⟩

/-- Settles O50: the two next states above, with each condition written as its bit of F (R111). -/
theorem callPushesTheAddressAfterIt : Obligations.CallPushesTheAddressAfterIt := by
  intro lo hi s
  refine ⟨entry_call lo hi, entry_callCc .nz lo hi, entry_callCc .z lo hi, entry_callCc .nc lo hi,
    entry_callCc .c lo hi, exec_call (hi ++ lo) s, ?conditions⟩
  case conditions =>
    simp only [exec_callCc, s.cond_nz_iff, s.cond_z_iff, s.cond_nc_iff, s.cond_c_iff, and_self]

/-! ### PUSH, POP and RET -/

/-- PUSH of any pair pushes its view and moves PC by its length (R253). -/
theorem exec_push (p : Rp2) (s : State) :
    exec (.push p) s = .next { s.push16 (s.get16 (rp2Pair p)) with pc := s.pc + 1 } :=
  complete_advances (d := rom (.push p)) rfl (s.push16_pc _)

/-- The ROM entry of POP of any pair but AF, which alone has other tags than `- - - -` (R254, R255). -/
theorem rom_pop {p : Rp2} (hp : p ≠ .af) : rom (.pop p) = ⟨"POP", [opRp2 p], 1, tagsNone⟩ := by
  cases p with
  | af => exact absurd rfl hp
  | bc | de | hl => rfl

/-- POP of any pair but AF writes its view with the word popped and moves PC by its length (R254). -/
theorem exec_pop {p : Rp2} (hp : p ≠ .af) (s : State) :
    exec (.pop p) s = .next { s.pop16.2.set16 (rp2Pair p) s.pop16.1 with pc := s.pc + 1 } := by
  change execPop p s = _
  rw [execPop, rom_pop hp]
  exact complete_advances rfl ((State.set16_pc _ _ _).trans s.pop16_pc)

/-- RET redirects to the word popped, so its length is not added (R256). -/
theorem exec_ret (s : State) : exec .ret s = .next { s.pop16.2 with pc := s.pop16.1 } :=
  complete_noFlags (d := rom .ret) rfl (some s.pop16.1) s.pop16.2

/-- Settles O51: the three next states above, with each pair view written as its two registers (R16). -/
theorem pushPopRetTransferTheWordOnTheStack : Obligations.PushPopRetTransferTheWordOnTheStack := by
  refine ⟨⟨⟨rfl, rfl, rfl⟩, ⟨rfl, rfl, rfl⟩, ⟨rfl, rfl, rfl⟩, ⟨rfl, rfl, rfl⟩, ⟨rfl, rfl, rfl⟩, ⟨rfl, rfl, rfl⟩,
    ⟨rfl, rfl, rfl⟩, ⟨rfl, rfl, rfl⟩⟩, ?nextStates⟩
  case nextStates =>
    exact fun s => ⟨exec_push .bc s, exec_push .de s, exec_push .hl s, exec_push .af s,
      exec_pop (p := .bc) nofun s, exec_pop (p := .de) nofun s, exec_pop (p := .hl) nofun s, exec_ret s⟩

end Sys2Proof.Machine
end

section
/-!
PROOFS. The entries without a handler (R270 to R292): what an instruction with a fault in the table does is read
off `exec_shape` once, so each entry needs only its table fault, `UnimplementedMnemonic`.
-/

namespace Sys2Proof.Machine

/-! ### An instruction whose table entry has a fault -/

/-- An instruction with a fault in the table latches it and changes nothing else (R328): it does not complete,
since an instruction that completes has none. The escape row and POP AF are outside `exec_shape`. -/
theorem exec_of_faultOf_of_ne {i : Instr} {f : FaultName} (hescape : ∀ op, i ≠ .escape op) (hpop : i ≠ .pop .af)
    (hi : faultOf i = some f) (s : State) : exec i s = .next { s with fault := some f } := by
  obtain ⟨_, _, _, _, _, hnone, _⟩ | ⟨g, hexec, hg⟩ := exec_shape i s hescape hpop
  case inl => exact absurd (hnone.symm.trans hi) nofun
  case inr =>
    obtain rfl : g = f := Option.some.inj (hg.symm.trans hi)
    rw [hexec, takeFault_eq]

/-- The same for every instruction: the escape row is the entry it selects (R294), and POP AF alone has the
table fault `FlagContractViolation`, before which it writes (R255). -/
theorem exec_of_faultOf {i : Instr} {f : FaultName} (hi : faultOf i = some f) (hf : f ≠ .flagContractViolation)
    (s : State) : exec i s = .next { s with fault := some f } := by
  by_cases hescape : ∃ op, i = .escape op
  case pos =>
    obtain ⟨op, rfl⟩ := hescape
    rw [exec_escape]
    exact exec_of_faultOf_of_ne (cbInstr_not_escape _) (cbInstr_not_popAf _) ((faultOf_cbInstr _).trans hi) s
  case neg =>
    have hpop : i ≠ .pop .af := by
      rintro rfl
      exact hf (Option.some.inj hi).symm
    exact exec_of_faultOf_of_ne (not_exists.mp hescape) hpop hi s

/-- An entry without a handler latches `UnimplementedMnemonic` and changes nothing else (R270). -/
theorem exec_unimplemented {i : Instr} (hi : faultOf i = some .unimplementedMnemonic) (s : State) :
    exec i s = .next { s with fault := some .unimplementedMnemonic } :=
  exec_of_faultOf hi nofun s

/-! ### The obligations -/

/-- Settles O54: the Entry clauses are read off the encoder and the ROM, and the table fault of all ten entries
is `UnimplementedMnemonic`. -/
theorem unhandledPlainEntriesLatchUnimplementedMnemonic :
    Obligations.UnhandledPlainEntriesLatchUnimplementedMnemonic := by
  refine ⟨⟨⟨rfl, rfl, rfl⟩, ⟨rfl, rfl, rfl⟩, fun _ => ⟨rfl, rfl, rfl⟩, ⟨rfl, rfl, rfl⟩, ⟨rfl, rfl, rfl⟩,
    ⟨rfl, rfl, rfl⟩, ⟨rfl, rfl, rfl⟩, ⟨rfl, rfl, rfl⟩, ⟨rfl, rfl, rfl⟩, ⟨rfl, rfl, rfl⟩⟩, ?nextStates⟩
  case nextStates =>
    intro n8 s
    and_intros <;> exact exec_unimplemented rfl s

/-- Settles O55: as for O54; the table fault does not depend on the operand or the condition. -/
theorem unhandledArithmeticAndRetCcLatchUnimplementedMnemonic :
    Obligations.UnhandledArithmeticAndRetCcLatchUnimplementedMnemonic := by
  intro x n8 e8 p cc s
  refine ⟨⟨⟨rfl, rfl, rfl⟩, ⟨rfl, rfl, rfl⟩, ⟨rfl, rfl, rfl⟩, ⟨rfl, rfl, rfl⟩, ⟨rfl, rfl, rfl⟩,
    ⟨rfl, rfl, rfl⟩, ⟨rfl, rfl, rfl⟩⟩, ?nextStates⟩
  case nextStates =>
    and_intros <;> exact exec_unimplemented rfl s

/-- The bytes of RLC, whose second byte is the operand's code itself (R286). -/
theorem entry_rlc (x : Opnd8) : Entry (.rlc x) [0xCB, opnd8Code x] 'Z' '0' '0' 'C' :=
  ⟨congrArg ([0xCB, ·]) (BitVec.zero_add (opnd8Code x)), rfl, rfl⟩

/-- Settles O56: as for O54; the table fault does not depend on the operand or the bit index. -/
theorem unhandledPrefixedEntriesLatchUnimplementedMnemonic :
    Obligations.UnhandledPrefixedEntriesLatchUnimplementedMnemonic := by
  intro b x s
  refine ⟨⟨entry_rlc x, ⟨rfl, rfl, rfl⟩, ⟨rfl, rfl, rfl⟩, ⟨rfl, rfl, rfl⟩, ⟨rfl, rfl, rfl⟩,
    ⟨rfl, rfl, rfl⟩, ⟨rfl, rfl, rfl⟩⟩, ?nextStates⟩
  case nextStates =>
    and_intros <;> exact exec_unimplemented rfl s

end Sys2Proof.Machine
end

section
/-!
PROOFS. The decoder and the encoder (R70 to R86). What a first byte and its operand bytes decode to is said once
for every instruction (`decodesAs_encode`), and what every first byte decodes to is encoded as once for every byte
(`encodedBy_decodeOp`), along the fields x, y, z of the tables (R72); the two directions and the length follow.
-/

namespace Sys2Proof.Machine

/-! ### The prefixed table -/

/-- The second byte of a prefixed entry, which selects it (R82). -/
def cbCode : CbOp → Byte
  | .rlc x   => 0x00 + opnd8Code x
  | .rrc x   => 0x08 + opnd8Code x
  | .rl x    => 0x10 + opnd8Code x
  | .rr x    => 0x18 + opnd8Code x
  | .sla x   => 0x20 + opnd8Code x
  | .sra x   => 0x28 + opnd8Code x
  | .swap x  => 0x30 + opnd8Code x
  | .srl x   => 0x38 + opnd8Code x
  | .bit b x => 0x40 + 8 * code3 b + opnd8Code x
  | .res b x => 0x80 + 8 * code3 b + opnd8Code x
  | .set b x => 0xC0 + 8 * code3 b + opnd8Code x

/-- A prefixed entry is encoded as the escape byte and its selecting byte (R79). -/
theorem encode_cbInstr (c : CbOp) : encode (cbInstr c) = [escapeByte, cbCode c] := by
  cases c <;> rfl

/-- Every second byte selects the entry it is the code of (R82). -/
theorem cbCode_decodeCb (op : Byte) : cbCode (decodeCb op) = op := by
  revert op
  decide

/-- The code of a prefixed entry selects that entry (R82). -/
theorem decodeCb_cbCode (c : CbOp) : decodeCb (cbCode c) = c := by
  cases c with
  | bit b x | res b x | set b x =>
    revert b
    rcases x with r | _
    · cases r <;> decide
    · decide
  | rlc x | rrc x | rl x | rr x | sla x | sra x | swap x | srl x =>
    rcases x with r | _
    · cases r <;> rfl
    · rfl

/-- Every entry of the prefixed table is well formed: the table has no byte without an entry (R82). -/
theorem cbInstr_wf (c : CbOp) : (cbInstr c).wf = true := by
  cases c <;> rfl

/-! ### What the bytes of an instruction decode to -/

/-- The first byte `op` asks for exactly the bytes `args` after it, and with them the decoder gives `i`, whatever
bytes follow. -/
structure DecodesAs (op : Byte) (args : List Byte) (i : Instr) : Prop where
  length : fetchLength op = args.length + 1
  instr : ∀ rest : List Byte, decodeOp op ((args ++ rest).getD 0 0) ((args ++ rest).getD 1 0) = i

/-- The decoder accepts the bytes, since there are as many as the first asks for, and leaves what follows. -/
theorem DecodesAs.decode_append {op : Byte} {args : List Byte} {i : Instr} (h : DecodesAs op args i)
    (rest : List Byte) : decode (op :: args ++ rest) = .ok (i, rest) := by
  have hlen : ¬ ((args ++ rest).length + 1 < fetchLength op) := by
    rw [h.length, List.length_append]
    omega
  rw [List.cons_append, decode, if_neg hlen, h.instr, h.length, Nat.add_sub_cancel, List.drop_left]

/-- A prefixed entry is read back from its selecting byte (R79). -/
theorem decodesAs_cbInstr (c : CbOp) :
    ∃ op args, encode (cbInstr c) = op :: args ∧ DecodesAs op args (cbInstr c) :=
  ⟨escapeByte, [cbCode c], encode_cbInstr c, rfl, fun _ => congrArg cbInstr (decodeCb_cbCode c)⟩

/-- What holds for the eight values of a 3-bit field holds for the field. -/
theorem forall_bitVec3 {P : BitVec 3 → Prop} (h : P 0 ∧ P 1 ∧ P 2 ∧ P 3 ∧ P 4 ∧ P 5 ∧ P 6 ∧ P 7)
    (y : BitVec 3) : P y := by
  obtain ⟨⟨y, hy⟩⟩ := y
  obtain ⟨h0, h1, h2, h3, h4, h5, h6, h7⟩ := h
  interval_cases y <;> assumption

/-- RST is one byte, for every vector (R78, R250). -/
theorem decodesAs_rst : ∀ t : BitVec 3, DecodesAs (0xC7 + 8 * code3 t) [] (.rst t) :=
  forall_bitVec3 (by and_intros <;> exact ⟨rfl, fun _ => rfl⟩)

/-- A byte with no entry is read alone (R83, R293). -/
theorem decodesAs_noEntry {op : Byte} (h : op ∈ absentBytes) : DecodesAs op [] (.noEntry op) := by
  simp only [absentBytes, List.mem_cons, List.not_mem_nil, or_false] at h
  rcases h with rfl | rfl | rfl | rfl | rfl | rfl | rfl | rfl | rfl | rfl | rfl <;>
    exact ⟨rfl, fun _ => rfl⟩

/-- Every well-formed instruction is read back from its bytes. Fields with few values are split, so that the first
byte is a numeral; a word operand is its high byte beside its low byte (R76); the prefixed entries are those of
`decodesAs_cbInstr`. -/
theorem decodesAs_encode {i : Instr} (hi : i.wf = true) :
    ∃ op args, encode i = op :: args ∧ DecodesAs op args i := by
  cases i with
  | nop | di | jpHl | ldABc | ldADe | ldBcA | ldDeA | ldAHli | ldAHld | ldHliA | ldHldA | ldSpHl | ldCA | ldAC
  | rla | rra | ret | rlca | rrca | daa | cpl | scf | ccf | halt | reti | ei =>
    exact ⟨_, _, rfl, rfl, fun _ => rfl⟩
  | jr n | ldHlN n | ldhA8A n | ldhAA8 n | ldHlSpE n | cpN n | subN n | addN n | andN n | orN n | xorN n
  | stop n | adcN n | sbcN n | addSpE n =>
    exact ⟨_, _, rfl, rfl, fun _ => rfl⟩
  | jp a => exact ⟨_, _, rfl, rfl, fun _ => congrArg Instr.jp (cat_hi8_lo8 a)⟩
  | ldA16A a => exact ⟨_, _, rfl, rfl, fun _ => congrArg Instr.ldA16A (cat_hi8_lo8 a)⟩
  | ldAA16 a => exact ⟨_, _, rfl, rfl, fun _ => congrArg Instr.ldAA16 (cat_hi8_lo8 a)⟩
  | ldA16Sp a => exact ⟨_, _, rfl, rfl, fun _ => congrArg Instr.ldA16Sp (cat_hi8_lo8 a)⟩
  | call a => exact ⟨_, _, rfl, rfl, fun _ => congrArg Instr.call (cat_hi8_lo8 a)⟩
  | jpCc cc a => cases cc <;> exact ⟨_, _, rfl, rfl, fun _ => congrArg (Instr.jpCc _) (cat_hi8_lo8 a)⟩
  | callCc cc a => cases cc <;> exact ⟨_, _, rfl, rfl, fun _ => congrArg (Instr.callCc _) (cat_hi8_lo8 a)⟩
  | ldRrN p a => cases p <;> exact ⟨_, _, rfl, rfl, fun _ => congrArg (Instr.ldRrN _) (cat_hi8_lo8 a)⟩
  | jrCc cc n | retCc cc => cases cc <;> exact ⟨_, _, rfl, rfl, fun _ => rfl⟩
  | incRr p | decRr p | addHlRr p | push p | pop p => cases p <;> exact ⟨_, _, rfl, rfl, fun _ => rfl⟩
  | ldRN r n | ldRHl r | ldHlR r => cases r <;> exact ⟨_, _, rfl, rfl, fun _ => rfl⟩
  | ldRR dst r => cases dst <;> cases r <;> exact ⟨_, _, rfl, rfl, fun _ => rfl⟩
  | cp x | sub x | add x | and x | or x | xor x | inc8 x | dec8 x | adc x | sbc x =>
    rcases x with r | _
    · cases r <;> exact ⟨_, _, rfl, rfl, fun _ => rfl⟩
    · exact ⟨_, _, rfl, rfl, fun _ => rfl⟩
  | rl x => exact decodesAs_cbInstr (.rl x)
  | rr x => exact decodesAs_cbInstr (.rr x)
  | srl x => exact decodesAs_cbInstr (.srl x)
  | rlc x => exact decodesAs_cbInstr (.rlc x)
  | rrc x => exact decodesAs_cbInstr (.rrc x)
  | sla x => exact decodesAs_cbInstr (.sla x)
  | sra x => exact decodesAs_cbInstr (.sra x)
  | swap x => exact decodesAs_cbInstr (.swap x)
  | bit b x => exact decodesAs_cbInstr (.bit b x)
  | res b x => exact decodesAs_cbInstr (.res b x)
  | set b x => exact decodesAs_cbInstr (.set b x)
  | rst t => exact ⟨_, _, rfl, decodesAs_rst t⟩
  | noEntry op => exact ⟨_, _, rfl, decodesAs_noEntry (List.contains_iff_mem.mp hi)⟩
  | escape op => cases hi

/-- Settles O15: the bytes of a well-formed instruction decode as it, whatever follows them. -/
theorem decodeOfEncodeIsTheInstruction : Obligations.DecodeOfEncodeIsTheInstruction := by
  intro i rest hi
  obtain ⟨op, args, hbytes, hdecodes⟩ := decodesAs_encode hi
  rw [hbytes]
  exact hdecodes.decode_append rest

/-! ### What a first byte decodes to is encoded as -/

/-- The byte with the fields x, y, z (R72). -/
def opcodeOf (x : BitVec 2) (y z : BitVec 3) : Byte := x ++ y ++ z

/-- The fields x, y, z are all the bits of a byte (R72). -/
theorem opcodeOf_fields (op : Byte) : opcodeOf (fieldX op) (fieldY op) (fieldZ op) = op := by
  revert op
  decide

/-- The instruction is well formed, and its bytes are `op` and as many of `b1`, `b2` as `op` asks for. -/
structure EncodedBy (op b1 b2 : Byte) (i : Instr) : Prop where
  wf : i.wf = true
  bytes : encode i = op :: [b1, b2].take (fetchLength op - 1)

/-- An entry with a word operand, formed from the two bytes after the first (R76). -/
theorem EncodedBy.of_word {op b1 b2 : Byte} {i : Instr} (hwf : i.wf = true) (hlen : fetchLength op = 3)
    (hbytes : encode i = [op, lo8 (cat b2 b1), hi8 (cat b2 b1)]) : EncodedBy op b1 b2 i where
  wf := hwf
  bytes := by
    rw [hbytes, hlen, lo8_cat, hi8_cat]
    rfl

/-- The escape byte: the entry of the prefixed table (R79). -/
theorem EncodedBy.of_escape (b1 b2 : Byte) : EncodedBy escapeByte b1 b2 (cbInstr (decodeCb b1)) where
  wf := cbInstr_wf _
  bytes := by
    rw [encode_cbInstr, cbCode_decodeCb]
    rfl

/-- The quarter x = 0, column by column (R81); columns 0 and 1 hold its word operands. -/
theorem encodedBy_quarter0 (b1 b2 : Byte) :
    ∀ z y : BitVec 3, EncodedBy (opcodeOf 0 y z) b1 b2 (decodeOp (opcodeOf 0 y z) b1 b2) := by
  refine forall_bitVec3 ⟨forall_bitVec3 ?z0, forall_bitVec3 ?z1, forall_bitVec3 ?z2, forall_bitVec3 ?z3,
    forall_bitVec3 ?z4, forall_bitVec3 ?z5, forall_bitVec3 ?z6, forall_bitVec3 ?z7⟩
  case z0 =>
    exact ⟨⟨rfl, rfl⟩, .of_word rfl rfl rfl, ⟨rfl, rfl⟩, ⟨rfl, rfl⟩, ⟨rfl, rfl⟩, ⟨rfl, rfl⟩, ⟨rfl, rfl⟩,
      ⟨rfl, rfl⟩⟩
  case z1 =>
    exact ⟨.of_word rfl rfl rfl, ⟨rfl, rfl⟩, .of_word rfl rfl rfl, ⟨rfl, rfl⟩, .of_word rfl rfl rfl, ⟨rfl, rfl⟩,
      .of_word rfl rfl rfl, ⟨rfl, rfl⟩⟩
  all_goals and_intros <;> exact ⟨rfl, rfl⟩

/-- The quarter x = 1: single bytes (R81). -/
theorem encodedBy_quarter1 (b1 b2 : Byte) :
    ∀ z y : BitVec 3, EncodedBy (opcodeOf 1 y z) b1 b2 (decodeOp (opcodeOf 1 y z) b1 b2) :=
  forall_bitVec3 (by and_intros <;> exact forall_bitVec3 (by and_intros <;> exact ⟨rfl, rfl⟩))

/-- The quarter x = 2: single bytes (R81). -/
theorem encodedBy_quarter2 (b1 b2 : Byte) :
    ∀ z y : BitVec 3, EncodedBy (opcodeOf 2 y z) b1 b2 (decodeOp (opcodeOf 2 y z) b1 b2) :=
  forall_bitVec3 (by and_intros <;> exact forall_bitVec3 (by and_intros <;> exact ⟨rfl, rfl⟩))

/-- The quarter x = 3, column by column (R81); columns 2 to 5 hold its word operands and the escape byte. -/
theorem encodedBy_quarter3 (b1 b2 : Byte) :
    ∀ z y : BitVec 3, EncodedBy (opcodeOf 3 y z) b1 b2 (decodeOp (opcodeOf 3 y z) b1 b2) := by
  refine forall_bitVec3 ⟨forall_bitVec3 ?z0, forall_bitVec3 ?z1, forall_bitVec3 ?z2, forall_bitVec3 ?z3,
    forall_bitVec3 ?z4, forall_bitVec3 ?z5, forall_bitVec3 ?z6, forall_bitVec3 ?z7⟩
  case z2 =>
    exact ⟨.of_word rfl rfl rfl, .of_word rfl rfl rfl, .of_word rfl rfl rfl, .of_word rfl rfl rfl, ⟨rfl, rfl⟩,
      .of_word rfl rfl rfl, ⟨rfl, rfl⟩, .of_word rfl rfl rfl⟩
  case z3 =>
    exact ⟨.of_word rfl rfl rfl, .of_escape b1 b2, ⟨rfl, rfl⟩, ⟨rfl, rfl⟩, ⟨rfl, rfl⟩, ⟨rfl, rfl⟩, ⟨rfl, rfl⟩,
      ⟨rfl, rfl⟩⟩
  case z4 =>
    exact ⟨.of_word rfl rfl rfl, .of_word rfl rfl rfl, .of_word rfl rfl rfl, .of_word rfl rfl rfl, ⟨rfl, rfl⟩,
      ⟨rfl, rfl⟩, ⟨rfl, rfl⟩, ⟨rfl, rfl⟩⟩
  case z5 =>
    exact ⟨⟨rfl, rfl⟩, .of_word rfl rfl rfl, ⟨rfl, rfl⟩, ⟨rfl, rfl⟩, ⟨rfl, rfl⟩, ⟨rfl, rfl⟩, ⟨rfl, rfl⟩,
      ⟨rfl, rfl⟩⟩
  all_goals and_intros <;> exact ⟨rfl, rfl⟩

/-- What any first byte decodes to is encoded as the bytes it was read from (R86). -/
theorem encodedBy_decodeOp (op b1 b2 : Byte) : EncodedBy op b1 b2 (decodeOp op b1 b2) := by
  rw [← opcodeOf_fields op]
  generalize fieldX op = x
  obtain ⟨⟨x, hx⟩⟩ := x
  interval_cases x
  · exact encodedBy_quarter0 b1 b2 _ _
  · exact encodedBy_quarter1 b1 b2 _ _
  · exact encodedBy_quarter2 b1 b2 _ _
  · exact encodedBy_quarter3 b1 b2 _ _

/-! ### Lengths -/

/-- The first byte itself is always read (R101). -/
theorem fetchLength_pos (op : Byte) : 1 ≤ fetchLength op := by
  unfold fetchLength
  split <;> omega

/-- No instruction has more than two bytes after its first (R70). -/
theorem fetchLength_le (op : Byte) : fetchLength op ≤ 3 := by
  revert op
  decide

/-- At most two bytes at the front of a list that has them, and the bytes after them, are the list. -/
theorem take_getD_append_drop {bs : List Byte} {n : Nat} (hn : n ≤ 2) (h : n ≤ bs.length) :
    [bs.getD 0 0, bs.getD 1 0].take n ++ bs.drop n = bs := by
  match n, bs with
  | 0, _ => rfl
  | 1, _ :: _ => rfl
  | 2, _ :: _ :: _ => rfl

/-- Settles O16: the decoder has accepted the list, so it holds the bytes the first one asks for, and these are
the encoding. -/
theorem encodeOfDecodeIsTheBytes : Obligations.EncodeOfDecodeIsTheBytes := by
  intro bs rest i h
  cases bs with
  | nil => cases h
  | cons op bs =>
    rw [decode] at h
    split at h
    case isTrue => cases h
    case isFalse hlen =>
      cases h
      have hencoded := encodedBy_decodeOp op (bs.getD 0 0) (bs.getD 1 0)
      have hle := fetchLength_le op
      refine ⟨hencoded.wf, ?_⟩
      rw [hencoded.bytes, List.cons_append, take_getD_append_drop (by omega) (by omega)]

/-- The length in the ROM is the number of bytes (R70, R80). -/
theorem rom_length_eq {i : Instr} (hi : i.wf = true) : (rom i).length = (encode i).length := by
  cases i with
  | pop p => cases p <;> rfl
  | escape op => cases hi
  | _ => rfl

/-- Settles O17: the first byte asks for exactly the bytes of the encoding, and for 1 to 3. -/
theorem lengthIsToldByTheFirstByte : Obligations.LengthIsToldByTheFirstByte := by
  intro i hi
  obtain ⟨op, args, hbytes, hdecodes⟩ := decodesAs_encode hi
  have hfetch : fetchLength op = (rom i).length := by
    rw [rom_length_eq hi, hbytes, List.length_cons, hdecodes.length]
  refine ⟨rom_length_eq hi, hfetch ▸ fetchLength_pos op, hfetch ▸ fetchLength_le op, fun op' bs h => ?_⟩
  obtain rfl : op = op' := (List.cons.inj (hbytes.symm.trans h)).1
  exact hfetch

/-- Settles O18: the decoder run on each of the sixteen lists. -/
theorem wordsOfEachFamilyDecode : Obligations.WordsOfEachFamilyDecode := by
  and_intros <;> rfl

end Sys2Proof.Machine
end

section
/-!
PROOFS. The verifier (R108, R110), and what every instruction keeps: `exec_kept` collects, from `exec_shape`,
`exec_escape` and `exec_popAf`, what all instructions keep; the frames, the table faults and the invariant of a
step are read off it, and the flag contract and the moves of PC off the completion of an instruction.
-/

namespace Sys2Proof.Machine

/-! ### The verifier -/

@[simp] theorem slotFits_unaffected (o : Option Bool) : slotFits .unaffected o = true ↔ o = none := by
  rcases o with _ | _ | _ <;> simp [slotFits]

@[simp] theorem slotFits_forced0 (o : Option Bool) : slotFits .forced0 o = true ↔ o = some false := by
  rcases o with _ | _ | _ <;> simp [slotFits]

@[simp] theorem slotFits_forced1 (o : Option Bool) : slotFits .forced1 o = true ↔ o = some true := by
  rcases o with _ | _ | _ <;> simp [slotFits]

@[simp] theorem slotFits_computed (o : Option Bool) : slotFits .computed o = true ↔ o ≠ none := by
  rcases o with _ | _ | _ <;> simp [slotFits]

/-- The verifier accepts exactly when the slot of every flag fits its tag (R108). -/
theorem verify_iff {t : FlagTags} {p : Proposal} :
    verify t p = true ↔ ∀ k : Flag, slotFits (tagOf t k) (slotOf p k) = true := by
  simp only [verify, Bool.and_eq_true]
  constructor
  case mp =>
    rintro ⟨⟨⟨hz, hn⟩, hh⟩, hc⟩ k
    cases k <;> assumption
  case mpr => exact fun h => ⟨⟨⟨h .z, h .n⟩, h .h⟩, h .c⟩

/-- Settles O7: which slots fit is said tag by tag above; the next states are those of a proposal that fits in
every flag and of one that does not. -/
theorem verifierCommitsOrLatches : Obligations.VerifierCommitsOrLatches := by
  refine ⟨fun o => ⟨slotFits_unaffected o, slotFits_forced0 o, slotFits_forced1 o, slotFits_computed o⟩,
    fun d p r s => ⟨fun hfits => ?commits, fun ⟨k, hk⟩ => ?latches⟩⟩
  case commits =>
    rw [complete_fits (verify_iff.mpr hfits)]
    cases r <;> rfl
  case latches =>
    have hviolates : verify d.tags p = false := by
      rw [← Bool.not_eq_true, verify_iff]
      exact fun h => Bool.false_ne_true (hk.symm.trans (h k))
    exact complete_violates hviolates r s

/-! ### What every instruction keeps -/

/-- What an instruction keeps from the state `s` it is given to its next state `t`. -/
structure Kept (i : Instr) (s t : State) : Prop where
  fault : t.fault = (faultOf i).or s.fault
  lowNibble : faultOf i = none → s.f &&& 0x0F = 0 → t.f &&& 0x0F = 0
  wf : s.mem.wf = true → t.mem.wf = true
  nostore : storesOf s i = [] → t.mem = s.mem
  store : ∀ k : Nat, k ∉ (storesOf s i).map cellOf → t.mem.read k = s.mem.read k
  regs : ∀ r : Reg8, r ∉ regsOf i → t.get8 r = s.get8 r
  sp : writesSp i = false → t.sp = s.sp
  params : t.params = s.params
  display : t.display = s.display
  susp : s.susp <+: t.susp
  port : s.port <+: t.port

/-- The commit of a proposal keeps every register but F, and F too when nothing is proposed (R109). -/
theorem State.commit_get8 (s : State) {p : Proposal} {r : Reg8} (h : p = noFlags ∨ r ≠ .f) :
    (s.commit p).get8 r = s.get8 r := by
  rcases h with rfl | hr
  · rw [State.commit_noFlags]
  · exact s.get8_set8_other _ hr

/-- The commit of a proposal keeps a zero low nibble of F: it writes F only to clear it (R109). -/
theorem State.commit_lowNibble (s : State) (p : Proposal) (h : s.f &&& 0x0F = 0) :
    (s.commit p).f &&& 0x0F = 0 := by
  by_cases hp : p = noFlags
  · rwa [hp, State.commit_noFlags]
  · exact commitByte_lowNibble hp s.f

/-- An instruction that completes keeps what its handler keeps, since FLAG-COMMIT and ADVANCE write F and PC alone. -/
theorem Frame.kept {i : Instr} {s x : State} (fr : Frame i s x) (hfault : faultOf i = none) {p : Proposal}
    (hp : p = noFlags ∨ Reg8.f ∈ regsOf i) (w : Word) : Kept i s ((x.commit p).setPc w) where
  fault := by rw [hfault]; exact fr.fault
  lowNibble _ h := x.commit_lowNibble p (by rwa [fr.f])
  wf := fr.wf
  nostore := fr.nostore
  store := fr.store
  regs r hr := by
    have hcommit : p = noFlags ∨ r ≠ .f := hp.imp_right fun hf h => hr (by rwa [h])
    rw [State.setPc_get8, State.commit_get8 x hcommit, fr.regs r hr]
  sp := fr.sp
  params := fr.params
  display := fr.display
  susp := fr.susp
  port := fr.port

/-- An instruction that takes its table fault changes the latch alone. -/
theorem kept_latch {i : Instr} {f : FaultName} (hf : faultOf i = some f) (s : State) : Kept i s (s.latch f) where
  fault := by rw [hf]; rfl
  lowNibble h := by rw [hf] at h; cases h
  wf h := h
  nostore _ := rfl
  store _ _ := rfl
  regs r _ := s.latch_get8 f r
  sp _ := rfl
  params := rfl
  display := rfl
  susp := List.prefix_refl _
  port := List.prefix_refl _

/-- POP AF writes A, F and SP, and latches (R255). -/
theorem kept_popAf (s : State) (v w : Byte) :
    Kept (.pop .af) s (State.latch { s.pop16.2 with a := v, f := w } .flagContractViolation) :=
  have fr : Frame (.pop .af) s s.pop16.2 := Frame.pop rfl
  { fault := rfl
    lowNibble := nofun
    wf := fr.wf
    nostore := fr.nostore
    store := fr.store
    regs := fun r hr => by
      rw [← fr.regs r hr]
      cases r with
      | a | f => exact absurd (by decide) hr
      | _ => rfl
    sp := nofun
    params := fr.params
    display := fr.display
    susp := fr.susp
    port := fr.port }

/-- The escape row keeps what the entry it selects keeps (R294). -/
theorem Kept.of_cbInstr {op : Byte} {s t : State} (h : Kept (cbInstr (decodeCb op)) s t) :
    Kept (.escape op) s t where
  fault := by rw [h.fault, faultOf_cbInstr]; rfl
  lowNibble hf := h.lowNibble ((faultOf_cbInstr _).trans hf)
  wf := h.wf
  nostore hs := h.nostore ((storesOf_cbInstr s _).trans hs)
  store k hk := h.store k (by rwa [storesOf_cbInstr])
  regs r hr := h.regs r (by rwa [regsOf_cbInstr])
  sp _ := h.sp (writesSp_cbInstr _)
  params := h.params
  display := h.display
  susp := h.susp
  port := h.port

/-- Every instruction that `exec_shape` covers has a next state and keeps the above. -/
theorem exec_kept_of_ne {i : Instr} (hescape : ∀ op, i ≠ .escape op) (hpop : i ≠ .pop .af) (s : State) :
    ∃ t, exec i s = .next t ∧ Kept i s t := by
  obtain ⟨p, r, x, hexec, hfits, hnone, _, hp, fr⟩ | ⟨f, hexec, hf⟩ := exec_shape i s hescape hpop
  case inl => exact ⟨_, hexec.trans (complete_fits hfits r x), fr.kept hnone hp _⟩
  case inr => exact ⟨_, hexec, kept_latch hf s⟩

/-- Every instruction has a next state, and keeps the above. -/
theorem exec_kept (i : Instr) (s : State) : ∃ t, exec i s = .next t ∧ Kept i s t := by
  by_cases hpop : i = .pop .af
  case pos =>
    subst hpop
    exact ⟨_, exec_popAf s, kept_popAf s _ _⟩
  case neg =>
    by_cases hescape : ∃ op, i = .escape op
    case pos =>
      obtain ⟨op, rfl⟩ := hescape
      obtain ⟨t, hexec, hkept⟩ := exec_kept_of_ne (cbInstr_not_escape (decodeCb op)) (cbInstr_not_popAf _) s
      exact ⟨t, (exec_escape op s).trans hexec, hkept.of_cbInstr⟩
    case neg => exact exec_kept_of_ne (not_exists.mp hescape) hpop s

/-- What the next state of an instruction keeps. -/
theorem Kept.of_exec {i : Instr} {s t : State} (h : exec i s = .next t) : Kept i s t := by
  obtain ⟨u, hexec, hkept⟩ := exec_kept i s
  cases h.symm.trans hexec
  exact hkept

/-! ### The invariant of a step -/

/-- A clear latch lets the step run the instruction fetched after the display subsystem's turn (R100). -/
theorem step_of_clear {s : State} (h : s.fault = none) :
    step s = exec (fetch (displayTurn s)).1 (fetch (displayTurn s)).2 := by
  simp only [step, h]

/-- A step that answers a next state starts from a clear latch (R117). -/
theorem fault_of_step {s t : State} (h : step s = .next t) : s.fault = none := by
  cases hf : s.fault with
  | none => rfl
  | some f => simp [step_of_fault hf] at h

/-- FETCH and DECODE keep the invariant: they write the two output streams alone. -/
theorem State.Inv.fetch {s : State} (h : s.Inv) : (fetch s).2.Inv := by
  rw [fetch_eq]
  exact h

/-- The display subsystem's turn keeps the invariant: it writes cells, in the canonical form, and its queue. -/
theorem State.Inv.displayTurn {s : State} (h : s.Inv) : (displayTurn s).Inv := by
  obtain ⟨hwf, hparams, hnibble⟩ := h
  have hmem := displayTurn_wf s hwf
  rw [displayTurn_eq]
  exact ⟨hmem, hparams, hnibble⟩

/-- An instruction run with a clear latch keeps the invariant: if the latch is clear afterwards, the instruction
has no table fault and keeps the low nibble of F. -/
theorem State.Inv.exec {i : Instr} {s t : State} (hclear : s.fault = none) (h : s.Inv)
    (hexec : exec i s = .next t) : t.Inv := by
  obtain ⟨hwf, hparams, hnibble⟩ := h
  have hkept := Kept.of_exec hexec
  refine ⟨hkept.wf hwf, hkept.params ▸ hparams, fun ht => hkept.lowNibble ?_ (hnibble hclear)⟩
  have hfault := hkept.fault
  rwa [ht, hclear, Option.or_none, eq_comm] at hfault

/-- Settles O3: the display subsystem's turn, FETCH and DECODE, and the instruction each keep the invariant. -/
theorem everyStepKeepsTheInvariant : Obligations.EveryStepKeepsTheInvariant := by
  intro s t hinv hstep
  have hclear : s.fault = none := fault_of_step hstep
  rw [step_of_clear hclear] at hstep
  have hfetched : (fetch (displayTurn s)).2.fault = none := by
    rw [fetch_eq, displayTurn_eq]
    exact hclear
  exact hinv.displayTurn.fetch.exec hfetched hstep

/-! ### Faults and frames -/

/-- Settles O24: the latch afterwards is the table fault, or what it was where there is none. -/
theorem everyInstructionEndsInItsTableFaultOrNone : Obligations.EveryInstructionEndsInItsTableFaultOrNone := by
  refine ⟨fun i s => ?instruction, fun s hclear => ?step⟩
  case instruction =>
    obtain ⟨t, hexec, hkept⟩ := exec_kept i s
    refine ⟨t, hexec, fun h => ?_, fun h ht => h ?_⟩
    · rw [hkept.fault, h, Option.or_none]
    · exact (Option.or_eq_none_iff.mp (hkept.fault.symm.trans ht)).2
  case step =>
    rw [step_of_clear hclear]
    obtain ⟨t, hexec, _⟩ := exec_kept (fetch (displayTurn s)).1 (fetch (displayTurn s)).2
    exact ⟨t, hexec⟩

/-- Settles O27: what every instruction keeps of the memory. -/
theorem everyInstructionStoresOnlyWhereItsRuleSays : Obligations.EveryInstructionStoresOnlyWhereItsRuleSays :=
  fun _ _ _ h => ⟨(Kept.of_exec h).nostore, (Kept.of_exec h).store⟩

/-- Settles O28: what every instruction keeps of the registers, the parameters, the queue and the streams. -/
theorem everyInstructionWritesOnlyItsRegisters : Obligations.EveryInstructionWritesOnlyItsRegisters := by
  intro i s t h
  have hkept := Kept.of_exec h
  exact ⟨hkept.regs, hkept.sp, hkept.params, hkept.display, hkept.susp, hkept.port⟩

/-! ### The flag contract and the moves of PC -/

/-- A well-formed instruction is not the escape row. -/
theorem ne_escape_of_wf {i : Instr} (h : i.wf = true) (op : Byte) : i ≠ .escape op := by
  rintro rfl
  cases h

/-- A well-formed instruction without a table fault completes: its handler leaves F and PC alone, its proposal
fits its tags, and only a redirecting handler redirects (R108 to R110). -/
theorem exec_completes {i : Instr} {s t : State} (hwf : i.wf = true) (hnone : faultOf i = none)
    (h : exec i s = .next t) :
    ∃ (p : Proposal) (r : Option Word) (x : State), verify (rom i).tags p = true ∧
      (mayRedirect i = false → r = none) ∧ x.f = s.f ∧ x.pc = s.pc ∧
      t = (x.commit p).setPc (r.getD (x.pc + BitVec.ofNat 16 (rom i).length)) := by
  have hpop : i ≠ .pop .af := by
    rintro rfl
    cases hnone
  obtain ⟨p, r, x, hexec, hfits, _, hr, _, fr⟩ | ⟨f, _, hf⟩ := exec_shape i s (ne_escape_of_wf hwf) hpop
  case inl =>
    cases h.symm.trans (hexec.trans (complete_fits hfits r x))
    exact ⟨p, r, x, hfits, hr, fr.f, fr.pc, rfl⟩
  case inr => exact absurd (hf.symm.trans hnone) nofun

/-- A well-formed instruction with a table fault, POP AF apart, changes the latch alone (R328). -/
theorem exec_faults {i : Instr} {s t : State} (hwf : i.wf = true) (hpop : i ≠ .pop .af) (hfault : faultOf i ≠ none)
    (h : exec i s = .next t) : ∃ f, t = s.latch f := by
  obtain ⟨f, hf⟩ := Option.ne_none_iff_exists'.mp hfault
  cases h.symm.trans (exec_of_faultOf_of_ne (ne_escape_of_wf hwf) hpop hf s)
  exact ⟨f, rfl⟩

/-- Settles O25: an entry that faults leaves F alone; one that completes commits a proposal whose every slot fits
its tag. -/
theorem everyInstructionKeepsItsFlagContract : Obligations.EveryInstructionKeepsItsFlagContract := by
  intro i s t hwf hpop hexec k
  refine ⟨fun hfault => ?faults, fun hnone => ?completes⟩
  case faults =>
    obtain ⟨f, rfl⟩ := exec_faults hwf hpop hfault hexec
    rfl
  case completes =>
    obtain ⟨p, r, x, hfits, _, hf, _, rfl⟩ := exec_completes hwf hnone hexec
    have hflag : ((x.commit p).setPc (r.getD (x.pc + BitVec.ofNat 16 (rom i).length))).flag k =
        (slotOf p k).getD (s.flag k) := by
      rw [State.flag, State.flag, ← hf]
      exact commitByte_flag p x.f k
    have hslot := verify_iff.mp hfits k
    refine ⟨fun htag => ?_, fun htag => ?_, fun htag => ?_⟩ <;> rw [htag] at hslot
    · rw [hflag, (slotFits_unaffected _).mp hslot, Option.getD_none]
    · rw [hflag, (slotFits_forced0 _).mp hslot, Option.getD_some]
    · rw [hflag, (slotFits_forced1 _).mp hslot, Option.getD_some]

/-- Settles O26: without a redirect ADVANCE moves PC by the length; a fault leaves PC alone, POP AF's included. -/
theorem pcAdvancesByTheLengthUnlessRedirectedOrFaulted :
    Obligations.PcAdvancesByTheLengthUnlessRedirectedOrFaulted := by
  intro i s t hwf hexec
  refine ⟨fun hnone hredirect => ?advances, fun hfault => ?stays⟩
  case advances =>
    obtain ⟨p, r, x, _, hr, _, hpc, rfl⟩ := exec_completes hwf hnone hexec
    rw [State.setPc_pc, hr hredirect, hpc, Option.getD_none]
  case stays =>
    by_cases hpop : i = .pop .af
    case pos =>
      subst hpop
      cases hexec.symm.trans (exec_popAf s)
      exact s.pop16_pc
    case neg =>
      obtain ⟨f, rfl⟩ := exec_faults hwf hpop hfault hexec
      rfl

/-! ### The escape row -/

/-- Settles O58: the escape byte's entry is the prefixed table, in which the row itself does not occur; the row
runs the entry it selects, and every instruction has a next state. -/
theorem escapeByteSelectsThePrefixedTable : Obligations.EscapeByteSelectsThePrefixedTable := by
  refine ⟨fun _ _ => rfl, fun op s => ⟨exec_escape op s, ?runs⟩,
    fun b1 _ op => cbInstr_not_escape (decodeCb b1) op, rfl⟩
  case runs =>
    obtain ⟨t, hexec, _⟩ := exec_kept (.escape op) s
    exact ⟨t, hexec⟩

end Sys2Proof.Machine
end

section
/-!
PROOFS. Reset (R30, R350) and the memory: the canonical form of the store, the ranges of the bus (R41 to R50) and
the stack on it (R112, R113).
-/

namespace Sys2Proof.Machine

/-! ### Reset -/

/-- Settles O1: what a launch and the default launch leave, field by field. -/
theorem releasingResetLeavesTheLaunchValues : Obligations.ReleasingResetLeavesTheLaunchValues := by
  refine ⟨fun _ _ => rfl, fun r => ?registers, rfl, rfl, fun _ => rfl, rfl, fun x s => ⟨rfl, resetBlock_fault x s⟩⟩
  case registers => cases r <;> rfl

/-- A legal launch on legal parameters meets the invariant: it is the image, the parameters and F of the launch. -/
theorem State.inv_launch {p : Params} {x : Launch} (hp : p.wf = true) (hx : x.wf = true) :
    (State.launch p x).Inv := by
  rw [Launch.wf, Bool.and_eq_true, decide_eq_true_iff] at hx
  obtain ⟨himage, hf⟩ := hx
  exact ⟨himage, hp, fun _ => hf⟩

/-- Settles O2: `State.reset` is the launch of the default record on the default parameters, both legal. -/
theorem releasingResetGivesTheInvariant : Obligations.ReleasingResetGivesTheInvariant :=
  ⟨State.inv_launch (by decide) (by decide), fun _ _ => State.inv_launch⟩

/-! ### The canonical form -/

/-- A listed cell reads as no unlisted cell does. -/
theorem Memory.read_head_ne {lo k : Nat} {v : Byte} {m : Memory} (h : Memory.wfFrom lo ((k, v) :: m) = true) :
    Memory.read ((k, v) :: m) k ≠ Memory.unlisted := by
  obtain ⟨_, _, hv, _⟩ := Memory.wfFrom_cons.mp h
  rwa [Memory.read, if_pos rfl]

/-- The first cell a canonical store lists is the first one that reads as no unlisted cell, so the first cells of
two canonical stores that read alike are the same. -/
theorem Memory.head_le {lo lo' j k : Nat} {v w : Byte} {m m' : Memory}
    (hm : Memory.wfFrom lo ((j, v) :: m) = true) (hm' : Memory.wfFrom lo' ((k, w) :: m') = true)
    (h : ∀ i : Nat, Memory.read ((j, v) :: m) i = Memory.read ((k, w) :: m') i) : k ≤ j := by
  by_contra hlt
  obtain ⟨_, hrest⟩ := Memory.wfFrom_cons.mp hm'
  have hbelow : Memory.wfFrom k ((k, w) :: m') = true := Memory.wfFrom_cons.mpr ⟨le_refl k, hrest⟩
  exact Memory.read_head_ne hm ((h j).trans (Memory.read_below (by omega) hbelow))

/-- Canonical stores that read alike are equal, by induction along the first: the heads agree, and the tails read
alike since neither lists the head's cell again. -/
theorem Memory.eq_of_read {lo lo' : Nat} {m m' : Memory} (hm : Memory.wfFrom lo m = true)
    (hm' : Memory.wfFrom lo' m' = true) (h : ∀ k : Nat, m.read k = m'.read k) : m = m' := by
  induction m generalizing lo lo' m' with
  | nil =>
    cases m' with
    | nil => rfl
    | cons y m' => exact absurd (h y.1).symm (Memory.read_head_ne hm')
  | cons x m ih =>
    cases m' with
    | nil => exact absurd (h x.1) (Memory.read_head_ne hm)
    | cons y m' =>
      obtain ⟨j, v⟩ := x
      obtain ⟨k, w⟩ := y
      obtain rfl : j = k := le_antisymm (Memory.head_le hm' hm fun i => (h i).symm) (Memory.head_le hm hm' h)
      obtain rfl : v = w := by simpa [Memory.read] using h j
      obtain ⟨_, _, _, htail⟩ := Memory.wfFrom_cons.mp hm
      obtain ⟨_, _, _, htail'⟩ := Memory.wfFrom_cons.mp hm'
      have hread : ∀ i : Nat, Memory.read m i = Memory.read m' i := by
        intro i
        by_cases hi : i = j
        · rw [hi, Memory.read_below (Nat.lt_succ_self j) htail, Memory.read_below (Nat.lt_succ_self j) htail']
        · simpa [Memory.read, hi] using h i
      rw [ih htail htail' hread]

/-- Settles O8: `Memory.wf` is the canonical form from cell 0 up. -/
theorem canonicalStoresThatReadAlikeAreEqual : Obligations.CanonicalStoresThatReadAlikeAreEqual :=
  fun _ _ => Memory.eq_of_read

/-! ### The ranges of the bus -/

/-- Outside 0xFF00 to 0xFF7F a read shows on neither stream (R55). -/
theorem State.afterRead_quiet (s : State) {a : Word} (h : readsQuietly a) : s.afterRead a = s := by
  unfold readsQuietly at h
  unfold State.afterRead
  split
  case h_1 hr => exact absurd ((s.regionOf_eq_display a).mp hr) (by omega)
  case h_2 hr => exact absurd ((s.regionOf_eq_suspicious a).mp hr) (by omega)
  case h_3 => rfl

/-- Outside 0xFF00 to 0xFF7F a read gives the cell and changes nothing (R47, R48). -/
theorem State.memRead_quiet (s : State) {a : Word} (h : readsQuietly a) :
    s.memRead a = (s.mem.read (cellOf a), s) := by
  have hcell : s.busByte a = s.cell a := s.busByte_eq_cell (by unfold readsQuietly at h; omega)
  rw [State.memRead, hcell, s.afterRead_quiet h, State.cell]

/-- Outside 0xFF00 to 0xFF7F a write stores the byte and changes nothing else (R47, R48). -/
theorem State.memWrite_quiet (s : State) {a : Word} (h : readsQuietly a) (v : Byte) :
    s.memWrite a v = { s with mem := s.mem.write (cellOf a) v } := by
  unfold readsQuietly at h
  unfold State.memWrite
  split
  case h_1 hr => exact absurd ((s.regionOf_eq_display a).mp hr) (by omega)
  case h_2 hr => exact absurd ((s.regionOf_eq_suspicious a).mp hr) (by omega)
  case h_3 => rfl

/-- The two accesses of a quiet address, by the number of its cell. -/
theorem State.bus_quiet (s : State) {a : Word} {k : Nat} (h : readsQuietly a) (hcell : cellOf a = k) (v : Byte) :
    s.memRead a = (s.mem.read k, s) ∧ s.memWrite a v = { s with mem := s.mem.write k v } := by
  subst hcell
  exact ⟨s.memRead_quiet h, s.memWrite_quiet h v⟩

/-- A display register other than the scanline register answers by the device, and the read is shown (R43). -/
theorem State.memRead_displayRange (s : State) {a : Word} (h : 0xFF00 ≤ a.toNat ∧ a.toNat ≤ 0xFF4B)
    (hly : a ≠ 0xFF44) :
    s.memRead a = (s.ioRead a, { s with port := s.port ++ [.read a (s.ioRead a)] }) := by
  have hregion := (s.regionOf_eq_display a).mpr h
  have hne : a ≠ lyAddr := hly
  simp only [State.memRead, State.busByte, State.afterRead, hregion, if_neg hne]
  rfl

/-- The scanline register answers the sentinel, and the read is not shown (R45). -/
theorem State.memRead_scanline (s : State) : s.memRead 0xFF44 = (s.params.lySentinel, s) := by
  have hregion : s.regionOf lyAddr = .display := (s.regionOf_eq_display lyAddr).mpr (by decide)
  change s.memRead lyAddr = _
  simp only [State.memRead, State.busByte, State.afterRead, hregion, if_true]

/-- A write of the display range is shown and mirrored, the scanline register's too (R44, R45). -/
theorem State.memWrite_displayRange (s : State) {a : Word} (h : 0xFF00 ≤ a.toNat ∧ a.toNat ≤ 0xFF4B) (v : Byte) :
    s.memWrite a v = { s with port := s.port ++ [.write a v], mem := s.mem.write a.toNat v } := by
  have hregion := (s.regionOf_eq_display a).mpr h
  have hcell : cellOf a = a.toNat := cellOf_of_not_echo (by omega)
  simp only [State.memWrite, hregion, State.setCell, hcell]
  rfl

/-- A read of the suspicious range gives the cell of the same number and adds one event (R46). -/
theorem State.memRead_suspicious (s : State) {a : Word} (h : 0xFF4C ≤ a.toNat ∧ a.toNat ≤ 0xFF7F) :
    s.memRead a =
      (s.mem.read a.toNat, { s with susp := s.susp ++ [⟨a, .read, s.mem.read a.toNat⟩] }) := by
  have hcell : cellOf a = a.toNat := cellOf_of_not_echo (by omega)
  rw [State.memRead, s.busByte_eq_cell (by omega), s.afterRead_suspicious ((s.regionOf_eq_suspicious a).mpr h),
    State.cell, hcell]
  rfl

/-- Settles O9: four ranges are quiet, each with its cells (R41, R42); the display range, its scanline register and
the suspicious range have the accesses said above. -/
theorem busFollowsTheRoutingTable : Obligations.BusFollowsTheRoutingTable := by
  intro s a v
  refine ⟨fun h => ?below, fun h => ?echo, fun h => ?sprite, fun ⟨hlo, hhi, hly⟩ => s.memRead_displayRange ⟨hlo, hhi⟩ hly,
    fun h => h ▸ s.memRead_scanline, fun h => s.memWrite_displayRange h v,
    fun h => ⟨s.memRead_suspicious h, ?suspiciousWrite⟩, fun h => ?high⟩
  case echo => exact s.bus_quiet (by unfold readsQuietly; omega) (if_pos h) v
  case suspiciousWrite =>
    rw [s.memWrite_suspicious v ((s.regionOf_eq_suspicious a).mpr h), State.setCell, cellOf_of_not_echo (by omega)]
    rfl
  case below | sprite | high =>
    exact s.bus_quiet (by unfold readsQuietly; omega) (cellOf_of_not_echo (by omega)) v

/-- Settles O11: the scanline register's read is the same in every state, and its write is one of the display
range. -/
theorem scanlineReadsTheSentinelWhateverWasWritten : Obligations.ScanlineReadsTheSentinelWhateverWasWritten := by
  intro s v hwf
  have hwrite := s.memWrite_displayRange (a := 0xFF44) (by decide) v
  refine ⟨s.memRead_scanline, by rw [hwrite], ?mirrored, ?readAfter⟩
  case mirrored =>
    rw [hwrite]
    exact Memory.read_write_same hwf _ v
  case readAfter => rw [State.memRead_scanline, State.memWrite_params]

/-- Settles O12: after the write the reference device answers the mirrored cell, and any other device what it
answers after the history that the write has lengthened. -/
theorem displayWritesAreDelegatedAndMirrored : Obligations.DisplayWritesAreDelegatedAndMirrored := by
  intro s a v hwf hlo hhi
  have hwrite := s.memWrite_displayRange ⟨hlo, hhi⟩ v
  have hmirror : (s.memWrite a v).mem.read a.toNat = v := by
    rw [hwrite]
    exact Memory.read_write_same hwf _ v
  refine ⟨hwrite, hmirror, fun hly hio => ?latch, fun hly hio => ?free⟩ <;>
    rw [State.memRead_displayRange _ ⟨hlo, hhi⟩ hly, State.ioRead, State.memWrite_params, hio]
  case latch => exact (congrArg _ (cellOf_of_not_echo (by omega))).trans hmirror
  case free => rw [hwrite]

/-! ### The stack -/

/-- Adjacent addresses resolve to different cells, at the ends of the echo range too (R42). -/
theorem cellOf_sub_one_ne (a : Word) : cellOf (a - 1) ≠ cellOf (a - 2) := by
  have hnext : (a - 1).toNat = ((a - 2).toNat + 1) % 65536 := by bv_omega
  have hlt := (a - 2).isLt
  unfold cellOf
  split_ifs <;> omega

/-- A pop with the memory and the SP that a push leaves gives the word pushed and the SP before the push, where
both bytes lie outside the display range (R112, R113). -/
theorem State.pop16_of_pushed {s t : State} {w : Word} (hwf : s.mem.wf = true) (hhi : storesPlainly (s.sp - 1))
    (hlo : storesPlainly (s.sp - 2)) (hmem : t.mem = (s.push16 w).mem) (hsp : t.sp = s.sp - 2) :
    t.pop16.1 = w ∧ t.pop16.2.sp = s.sp := by
  have hnext : t.sp + 1 = s.sp - 1 := by bv_omega
  have hlow : t.busByte t.sp = lo8 w := by
    rw [hsp, State.busByte_eq_cell _ hlo, State.cell, hmem, State.push16_mem]
    exact Memory.read_write_same (Memory.write_wf _ (cellOf_lt _) hwf) _ _
  have hhigh : (t.afterRead t.sp).busByte (t.sp + 1) = hi8 w := by
    rw [hnext, State.busByte_eq_cell _ hhi, State.cell, State.afterRead_mem, hmem, State.push16_mem,
      Memory.read_write_other _ _ (cellOf_sub_one_ne s.sp)]
    exact Memory.read_write_same hwf _ _
  constructor
  · rw [State.pop16_eq, hlow, hhigh, cat_hi8_lo8]
  · rw [State.pop16_sp, hsp]
    bv_omega

/-- A pop by its two reads, the low byte first (R113). -/
theorem State.pop16_of_memRead {s s1 s2 : State} {lo hi : Byte} (hlow : s.memRead s.sp = (lo, s1))
    (hhigh : s1.memRead (s.sp + 1) = (hi, s2)) : s.pop16 = (hi ++ lo, { s2 with sp := s.sp + 2 }) := by
  simp only [State.pop16, hlow, hhigh]
  rfl

/-- Settles O14: the stores and the reads are those of the two primitives, and the last clause is the pop after a
push. -/
theorem popReturnsTheWordPushed : Obligations.PopReturnsTheWordPushed :=
  ⟨fun s w => s.push16_eq w, fun _ _ _ _ _ => State.pop16_of_memRead,
    fun _ _ hwf hhi hlo => State.pop16_of_pushed hwf hhi hlo rfl rfl⟩

end Sys2Proof.Machine
end

section
/-!
PROOFS. The step before DISPATCH (R57, R58, R100 to R103): the display subsystem's turn, and FETCH and DECODE.
-/

namespace Sys2Proof.Machine

/-! ### The display subsystem's turn -/

/-- With nothing queued the turn does nothing: the closed model with no display agent (R58). -/
theorem displayTurn_of_empty {s : State} (h : s.display = []) : displayTurn s = s := by
  simp only [displayTurn, h]

/-- The display subsystem's writes leave every cell outside 0xFF00 to 0xFF4B alone: an offset is below 0x4C (R58). -/
theorem foldl_displayWrite_read (ws : List DisplayWrite) (s : State) {k : Nat}
    (hk : ¬ (0xFF00 ≤ k ∧ k ≤ 0xFF4B)) : (ws.foldl displayWrite s).mem.read k = s.mem.read k := by
  induction ws generalizing s with
  | nil => rfl
  | cons w ws ih =>
    have hother : k ≠ 0xFF00 + w.offset.val := by
      have := w.offset.isLt
      omega
    rw [List.foldl_cons, ih, displayWrite]
    exact Memory.read_write_other _ _ hother

/-- Settles O23: the frame of the turn, and that its writes are of display cells. -/
theorem displaySubsystemChangesOnlyItsCells : Obligations.DisplaySubsystemChangesOnlyItsCells := by
  refine fun s => ⟨displayTurn_eq s, fun k hk => ?cells⟩
  case cells =>
    unfold displayTurn
    split
    · rfl
    · exact foldl_displayWrite_read _ _ hk

/-! ### The bytes fetched -/

/-- One byte is read, and the others after it from the next address (R51). -/
theorem fetchBytes_succ (n : Nat) (a : Word) (s : State) :
    fetchBytes (n + 1) a s =
      (s.busByte a :: (fetchBytes n (a + 1) (s.afterRead a)).1, (fetchBytes n (a + 1) (s.afterRead a)).2) := rfl

/-- The byte at PC is read, and as many more as it asks for (R101, R103). -/
theorem fetchInstr_eq (s : State) :
    fetchInstr s =
      (s.busByte s.pc :: (fetchBytes (fetchLength (s.busByte s.pc) - 1) (s.pc + 1) (s.afterRead s.pc)).1,
        (fetchBytes (fetchLength (s.busByte s.pc) - 1) (s.pc + 1) (s.afterRead s.pc)).2) := rfl

/-- Settles O21: the bytes after the first are read one by one, each from the state the read before it left. -/
theorem fetchReadsAscendingAndChangesNoState : Obligations.FetchReadsAscendingAndChangesNoState := by
  intro s
  have hpos := fetchLength_pos (s.busByte s.pc)
  refine ⟨?length, rfl, fun h2 => ?second, fun h3 => ?third, fetch_eq s⟩
  case length =>
    rw [fetchInstr_eq, List.length_cons, fetchBytes_length]
    omega
  case second =>
    obtain ⟨n, hn⟩ : ∃ n, fetchLength (s.busByte s.pc) - 1 = n + 1 :=
      ⟨fetchLength (s.busByte s.pc) - 2, by omega⟩
    rw [fetchInstr_eq, hn, fetchBytes_succ]
    rfl
  case third =>
    have hnext : s.pc + 1 + 1 = s.pc + 2 := by bv_omega
    rw [fetchInstr_eq, h3, fetchBytes_succ, fetchBytes_succ, hnext]
    rfl

/-! ### The instruction fetched -/

/-- The bytes of a well-formed instruction, fetched together, are that instruction. -/
theorem decodeFetched_encode {i : Instr} (hi : i.wf = true) : decodeFetched (encode i) = i := by
  obtain ⟨op, args, hbytes, hdecodes⟩ := decodesAs_encode hi
  have hinstr := hdecodes.instr []
  rw [List.append_nil] at hinstr
  rw [hbytes]
  exact hinstr

/-- Settles O19: DISPATCH runs what the bytes read decode to. -/
theorem stepRunsTheDecodedInstruction : Obligations.StepRunsTheDecodedInstruction := by
  refine ⟨fun s i hclear hi hbytes => ?runs, fun _ => displayTurn_of_empty⟩
  case runs => rw [step_of_clear hclear, fetch, hbytes, decodeFetched_encode hi]

/-- The bytes stand in the cells from an address on, all in ranges that are read without a side effect. -/
def StoredAt (s : State) (bs : List Byte) (a : Word) : Prop :=
  ∀ k : Nat, k < bs.length →
    readsQuietly (a + BitVec.ofNat 16 k) ∧ s.mem.read (cellOf (a + BitVec.ofNat 16 k)) = bs.getD k 0

/-- The first of the bytes stands at the address itself, and is what a read there gives. -/
theorem StoredAt.memRead_head {s : State} {b : Byte} {bs : List Byte} {a : Word} (h : StoredAt s (b :: bs) a) :
    s.memRead a = (b, s) := by
  have hzero : a + BitVec.ofNat 16 0 = a := BitVec.add_zero a
  obtain ⟨hquiet, hread⟩ := h 0 (Nat.zero_lt_succ _)
  rw [hzero] at hquiet hread
  rw [s.memRead_quiet hquiet, hread]
  rfl

/-- The others stand from the next address on. -/
theorem StoredAt.tail {s : State} {b : Byte} {bs : List Byte} {a : Word} (h : StoredAt s (b :: bs) a) :
    StoredAt s bs (a + 1) := by
  intro k hk
  have hnext : a + 1 + BitVec.ofNat 16 k = a + BitVec.ofNat 16 (k + 1) := by
    rw [BitVec.add_assoc, BitVec.add_comm 1, BitVec.ofNat_add]
    rfl
  rw [hnext]
  exact h (k + 1) (Nat.succ_lt_succ hk)

/-- Bytes stored are the bytes read, and reading them changes nothing. -/
theorem StoredAt.fetchBytes {s : State} {bs : List Byte} {a : Word} (h : StoredAt s bs a) :
    fetchBytes bs.length a s = (bs, s) := by
  induction bs generalizing a with
  | nil => rfl
  | cons b bs ih =>
    obtain ⟨hbyte, hstate⟩ := Prod.mk.inj h.memRead_head
    rw [List.length_cons, fetchBytes_succ, hbyte, hstate, ih h.tail]

/-- An instruction stored at PC is what FETCH and DECODE read, on the very same state. -/
theorem StoredAt.fetchInstr {s : State} {i : Instr} (hi : i.wf = true) (h : StoredAt s (encode i) s.pc) :
    fetchInstr s = (encode i, s) := by
  obtain ⟨op, args, hbytes, hdecodes⟩ := decodesAs_encode hi
  rw [hbytes] at h ⊢
  obtain ⟨hbyte, hstate⟩ := Prod.mk.inj h.memRead_head
  rw [fetchInstr_eq, hbyte, hstate, hdecodes.length, Nat.add_sub_cancel, h.tail.fetchBytes]

/-- Settles O20: with nothing queued, the step runs the instruction that the bytes stored at PC are. -/
theorem stepRunsTheInstructionStoredAtPc : Obligations.StepRunsTheInstructionStoredAtPc := by
  intro s i hclear hdisplay hi hstored
  have hfetched : fetchInstr s = (encode i, s) := StoredAt.fetchInstr hi hstored
  rw [step_of_clear hclear, displayTurn_of_empty hdisplay, fetch, hfetched, decodeFetched_encode hi]

/-! ### A byte with no entry -/

/-- A byte with no entry takes its table fault (R293). -/
theorem exec_noEntry (op : Byte) (s : State) :
    exec (.noEntry op) s = .next { s with fault := some .unknownOpcode } :=
  exec_of_faultOf (i := .noEntry op) (f := .unknownOpcode) rfl nofun s

/-- A byte with no entry is read alone and fetched as itself (R102). -/
theorem fetch_noEntry {s : State} (h : s.busByte s.pc ∈ absentBytes) :
    fetch s = (.noEntry (s.busByte s.pc), s.afterRead s.pc) := by
  have hdecodes := decodesAs_noEntry h
  have hinstr : decodeOp (s.busByte s.pc) 0 0 = .noEntry (s.busByte s.pc) := hdecodes.instr []
  rw [fetch, fetchInstr_eq, hdecodes.length, ← hinstr]
  rfl

/-- Settles O57: a byte with no entry is fetched as itself and takes its table fault. -/
theorem bytesWithNoEntryLatchUnknownOpcode : Obligations.BytesWithNoEntryLatchUnknownOpcode := by
  refine ⟨exec_noEntry, fun s hclear hdisplay habsent => ?step⟩
  case step =>
    rw [step_of_clear hclear, displayTurn_of_empty hdisplay, fetch_noEntry habsent]
    exact exec_noEntry _ _

end Sys2Proof.Machine
end

section
/-!
PROOFS. The remaining result statements: the operand shapes with no case (R138, R139, R169 to R172), LD SP,HL
(R164), ADD (R199 to R201), INC and DEC of a pair (R215, R216), RR and RL undoing each other (R235), and RST, POP AF
and RET on the stack (R250, R255, R256).
-/

namespace Sys2Proof.Machine

/-! ### Operand shapes with no case -/

/-- An operand shape with no case latches `MalformedOperand` and changes nothing else (R323). -/
theorem exec_malformed {i : Instr} (hi : faultOf i = some .malformedOperand) (s : State) :
    exec i s = .next { s with fault := some .malformedOperand } :=
  exec_of_faultOf hi nofun s

/-- Settles O31: the Entry clauses are read off the encoder and the ROM, and the table fault of all six forms is
`MalformedOperand`. -/
theorem shapesWithNoCaseLatchMalformedOperand : Obligations.ShapesWithNoCaseLatchMalformedOperand := by
  intro cc a16 e8 lo hi s
  refine ⟨⟨congrArg (_ :: ·) (operandBytes_append hi lo), rfl, rfl⟩, ⟨rfl, rfl, rfl⟩,
    ⟨congrArg (_ :: ·) (operandBytes_append hi lo), rfl, rfl⟩, ⟨rfl, rfl, rfl⟩, ⟨rfl, rfl, rfl⟩, ⟨rfl, rfl, rfl⟩,
    ?nextStates⟩
  case nextStates => and_intros <;> exact exec_malformed rfl s

/-! ### LD SP, HL and the pairs -/

/-- Settles O33: SP is written with the view HL, `{H, L}` (R16). -/
theorem ldSpHlCopiesHl : Obligations.LdSpHlCopiesHl :=
  ⟨⟨rfl, rfl, rfl⟩, fun s =>
    complete_advances (d := rom .ldSpHl) rfl (s.set16_pc .sp (s.get16 .hl))⟩

/-- INC of any pair writes its view with the next word (R215). -/
theorem exec_incRr (p : Rp) (s : State) :
    exec (.incRr p) s = .next { s.set16 (rpPair p) (s.get16 (rpPair p) + 1) with pc := s.pc + 1 } :=
  complete_advances (d := rom (.incRr p)) rfl (s.set16_pc (rpPair p) _)

/-- DEC of any pair writes its view with the word before (R216). -/
theorem exec_decRr (p : Rp) (s : State) :
    exec (.decRr p) s = .next { s.set16 (rpPair p) (s.get16 (rpPair p) - 1) with pc := s.pc + 1 } :=
  complete_advances (d := rom (.decRr p)) rfl (s.set16_pc (rpPair p) _)

/-- Settles O43: the two next states above, with each pair view written as its two registers (R16). -/
theorem incDecPairTouchNoFlag : Obligations.IncDecPairTouchNoFlag := by
  refine ⟨⟨rfl, rfl, rfl⟩, ⟨rfl, rfl, rfl⟩, ⟨rfl, rfl, rfl⟩, ⟨rfl, rfl, rfl⟩, ⟨rfl, rfl, rfl⟩, ⟨rfl, rfl, rfl⟩,
    ⟨rfl, rfl, rfl⟩, ⟨rfl, rfl, rfl⟩, fun hi lo s => ?nextStates⟩
  case nextStates =>
    simp only [succ16_eq, pred16_eq]
    refine ⟨?bc, ?de, ?hl, exec_incRr .sp s, exec_decRr .sp s⟩
    case bc =>
      rintro rfl rfl
      exact ⟨exec_incRr .bc s, exec_decRr .bc s⟩
    case de =>
      rintro rfl rfl
      exact ⟨exec_incRr .de s, exec_decRr .de s⟩
    case hl =>
      rintro rfl rfl
      exact ⟨exec_incRr .hl s, exec_decRr .hl s⟩

/-! ### ADD -/

/-- The sum modulo 256 is the byte sum (R191). -/
theorem add8_result (a v : Byte) : (add8 a v).result = a + v := by
  rw [add8]
  bv_omega

/-- The sum is zero exactly when it is a multiple of 256 as a number (R191). -/
theorem flagsAdd_add8 (a v : Byte) :
    flagsAdd (add8 a v) = proposeAll (decide ((a.toNat + v.toNat) % 256 = 0)) false
      (decide (a.toNat % 16 + v.toNat % 16 > 15)) (decide (a.toNat + v.toNat > 255)) := by
  have hzero : BitVec.ofNat 8 (a.toNat + v.toNat) = 0 ↔ (a.toNat + v.toNat) % 256 = 0 := by
    rw [← BitVec.toNat_inj, BitVec.toNat_ofNat]
    rfl
  simp only [flagsAdd, add8, hzero]

/-- ADD, from a state `x` that a read of the right input left with the old A and PC (R199). -/
theorem aluAdd_eq {i : Instr} {s x : State} (hpc : x.pc = s.pc) (ha : x.a = s.a) (v : Byte)
    (htags : (rom i).tags = tagsAdd) :
    aluAdd i v x = .next { x with
      a := s.a + v,
      f := flagByte (decide ((s.a.toNat + v.toNat) % 256 = 0)) false
        (decide (s.a.toNat % 16 + v.toNat % 16 > 15)) (decide (s.a.toNat + v.toNat > 255)),
      pc := s.pc + BitVec.ofNat 16 (rom i).length } := by
  rw [aluAdd, ha, add8_result]
  exact complete_proposeAll htags (flagsAdd_add8 s.a v) rfl hpc

/-- Settles O40: `Read8` leaves A and PC alone, so both forms add the right input to the old A. -/
theorem addWritesTheSumAndItsFlags : Obligations.AddWritesTheSumAndItsFlags := by
  refine ⟨?operand, fun n8 s => ⟨⟨rfl, rfl, rfl⟩, aluAdd_eq (i := .addN n8) rfl rfl n8 rfl⟩⟩
  case operand =>
    rintro x s v rfl
    exact ⟨⟨rfl, rfl, rfl⟩, aluAdd_eq (i := .add x) (s.afterOpnd_pc x) (s.afterOpnd_a x) _ rfl⟩

/-! ### RR and RL of a register -/

/-- Nine bits rotated right and then left are as before. -/
theorem rotateLeft_rotateRight_one (w : BitVec 9) : (w.rotateRight 1).rotateLeft 1 = w := by
  ext i hi
  rw [BitVec.getElem_rotateLeft]
  split_ifs with hwrap
  · obtain rfl : i = 0 := by omega
    simp [BitVec.getElem_rotateRight]
  · have hlow : i - 1 < 8 := by omega
    have hback : 1 + (i - 1) = i := by omega
    simp [BitVec.getElem_rotateRight, hlow, hback]

/-- Nine bits rotated left and then right are as before. -/
theorem rotateRight_rotateLeft_one (w : BitVec 9) : (w.rotateLeft 1).rotateRight 1 = w := by
  ext i hi
  rw [BitVec.getElem_rotateRight]
  split_ifs with hlow
  · simp [BitVec.getElem_rotateLeft]
  · obtain rfl : i = 8 := by omega
    simp [BitVec.getElem_rotateLeft]

/-- The outputs of a rotate, carry above result, are the nine bits they were read from (R240). -/
theorem carryAbove_ofNine (w : BitVec 9) :
    carryAbove (ShiftOut.ofNine w).cout (ShiftOut.ofNine w).result = w :=
  have hcout : BitVec.ofBool (w.getLsbD 8) = w.extractLsb' 8 1 := by
    ext i hi
    obtain rfl : i = 0 := by omega
    simp
  (congrArg (· ++ w.extractLsb' 0 8) hcout).trans BitVec.extractLsb'_append_extractLsb'

/-- A byte below a carry, nine bits read as outputs again. -/
theorem ofNine_carryAbove (cin : Bool) (v : Byte) : ShiftOut.ofNine (carryAbove cin v) = ⟨v, cin⟩ := by
  have hcout : (carryAbove cin v).getLsbD 8 = cin := carryAbove_getElem cin v (by decide)
  have hresult : (carryAbove cin v).extractLsb' 0 8 = v := BitVec.extractLsb'_append_eq_right
  rw [ShiftOut.ofNine, hcout, hresult]

/-- `rl` takes back what `rr` gave (R240): the nine bits rotated right, then left. -/
theorem rl8_rr8 (v : Byte) (cin : Bool) : rl8 (rr8 v cin).result (rr8 v cin).cout = ⟨v, cin⟩ := by
  rw [rl8_eq_rotateLeft, rr8_eq_rotateRight, carryAbove_ofNine, rotateLeft_rotateRight_one, ofNine_carryAbove]

/-- `rr` takes back what `rl` gave (R240). -/
theorem rr8_rl8 (v : Byte) (cin : Bool) : rr8 (rl8 v cin).result (rl8 v cin).cout = ⟨v, cin⟩ := by
  rw [rr8_eq_rotateRight, rl8_eq_rotateLeft, carryAbove_ofNine, rotateRight_rotateLeft_one, ofNine_carryAbove]

/-- Bit 4 of F is C (R14). -/
theorem flagByte_carry (z n h c : Bool) : (flagByte z n h c).getLsbD 4 = c := by
  cases z <;> cases n <;> cases h <;> cases c <;> rfl

/-- A rotate of a register leaves its result in the register and the bit moved out in C (R232, R235): F is no
register operand. -/
theorem flagsRot_register {d : Descriptor} (htags : d.tags = tagsRot) {r : GReg} {o : ShiftOut} {s t : State}
    (h : complete d (flagsRot o) none (s.set8 (gregReg r) o.result) = .next t) :
    t.get8 (gregReg r) = o.result ∧ t.flag .c = o.cout := by
  cases h.symm.trans (complete_flagsRot htags (.reg r) s rfl)
  constructor
  · exact (State.get8_set8_other _ _ (gregReg_ne_f r)).trans (s.get8_set8_same _ _)
  · exact flagByte_carry _ _ _ _

/-- RR of a register, by what it leaves there and in C (R235). -/
theorem exec_rr_register {r : GReg} {s t : State} (h : exec (.rr (.reg r)) s = .next t) :
    t.get8 (gregReg r) = (rr8 (s.get8 (gregReg r)) (s.flag .c)).result ∧
      t.flag .c = (rr8 (s.get8 (gregReg r)) (s.flag .c)).cout :=
  flagsRot_register (d := rom (.rr (.reg r))) rfl h

/-- RL of a register, by what it leaves there and in C (R232). -/
theorem exec_rl_register {r : GReg} {s t : State} (h : exec (.rl (.reg r)) s = .next t) :
    t.get8 (gregReg r) = (rl8 (s.get8 (gregReg r)) (s.flag .c)).result ∧
      t.flag .c = (rl8 (s.get8 (gregReg r)) (s.flag .c)).cout :=
  flagsRot_register (d := rom (.rl (.reg r))) rfl h

/-- Settles O48: the second rotate reads what the first left in the register and in C, and takes it back. -/
theorem rotatesUndoEachOther : Obligations.RotatesUndoEachOther := by
  refine fun r s t u => ⟨fun hright hleft => ?rightLeft, fun hleft hright => ?leftRight⟩
  case rightLeft =>
    obtain ⟨hresult, hcout⟩ := exec_rr_register hright
    have hundo := exec_rl_register hleft
    rwa [hresult, hcout, rl8_rr8] at hundo
  case leftRight =>
    obtain ⟨hresult, hcout⟩ := exec_rl_register hleft
    have hundo := exec_rr_register hright
    rwa [hresult, hcout, rr8_rl8] at hundo

/-! ### RST, POP AF and RET -/

/-- The vector is eight times the field (R78). -/
theorem rstVector_eq (t : BitVec 3) : rstVector t = BitVec.ofNat 16 (8 * t.toNat) := by
  rw [rstVector]
  bv_omega

/-- RST pushes PC itself and redirects to its vector (R250). -/
theorem exec_rst (t : BitVec 3) (s : State) :
    exec (.rst t) s = .next { s.push16 s.pc with pc := BitVec.ofNat 16 (8 * t.toNat) } := by
  rw [← rstVector_eq]
  exact complete_noFlags (d := rom (.rst t)) rfl (some (rstVector t)) (s.push16 s.pc)

/-- Settles O49: the Entry clauses are read off the encoder and the ROM. -/
theorem rstPushesItsOwnAddress : Obligations.RstPushesItsOwnAddress :=
  fun t s => ⟨⟨rfl, rfl, rfl⟩, exec_rst t s⟩

/-- Settles O52: POP AF is the pop of its two reads, written to A and F, and then the latch. -/
theorem popAfWritesThenLatchesFlagContractViolation :
    Obligations.PopAfWritesThenLatchesFlagContractViolation := by
  refine ⟨⟨rfl, rfl, rfl⟩, fun s s1 s2 lo hi hlow hhigh => ?nextState⟩
  case nextState =>
    rw [exec_popAf, State.pop16_of_memRead hlow hhigh, hi8_append, lo8_append]
    rfl

/-- RET after a push, where both bytes lie outside the display range, goes to the word pushed and restores SP; what
came between may have moved PC (R256). -/
theorem exec_ret_of_pushed {s t : State} {w : Word} (hwf : s.mem.wf = true) (hhi : storesPlainly (s.sp - 1))
    (hlo : storesPlainly (s.sp - 2)) (hmem : t.mem = (s.push16 w).mem) (hsp : t.sp = s.sp - 2) :
    ∃ u, exec .ret t = .next u ∧ u.pc = w ∧ u.sp = s.sp :=
  ⟨_, exec_ret t, State.pop16_of_pushed hwf hhi hlo hmem hsp⟩

/-- Settles O53: CALL pushes PC + 3 and RST pushes PC, and RET takes the word back. -/
theorem retReturnsAfterTheCallAndToTheRst : Obligations.RetReturnsAfterTheCallAndToTheRst := by
  refine fun s t hwf hhi hlo => ⟨fun a16 hcall => ?call, fun v hrst => ?rst⟩
  case call =>
    cases hcall.symm.trans (exec_call a16 s)
    exact exec_ret_of_pushed hwf hhi hlo rfl rfl
  case rst =>
    cases hrst.symm.trans (exec_rst v s)
    exact exec_ret_of_pushed hwf hhi hlo rfl rfl

end Sys2Proof.Machine
end
